-- ==== Sys2Proof/Word.lean ====
section
/-! DEFINITION. The word types of the block: 32-bit registers and command words (R36, R91), bytes (R6: SYM_W = 8), and
bit strings, whose position 0 is the first bit produced and the first consumed (R7). -/

namespace Sys2Proof

/-- A register or a command word (R36, R91). -/
abbrev Word := BitVec 32

/-- One byte of a buffer, and one Symbol: a Symbol is a byte (R6, D2). -/
abbrev Byte := BitVec 8

/-- A bit string; the head of the list is position 0 (R7). -/
abbrev Bits := List Bool

end Sys2Proof
end

