-- ==== Sys2Proof/Syntax.lean ====
section
/-! DEFINITION. The 20 commands of R93, one constructor per row of spec/opcode_table.json, and their names as a type. -/

namespace Sys2Proof

/-- A command with its operands (R93, R96). A node index is a number, a Symbol a byte; the weight of ND_LEAF is no field of
the word, it comes from register ARG0. -/
inductive Instr where
  | nop
  | clr
  | ftBuild
  | ndLeaf (sym : Byte)
  | ndJoin (a b : Nat)
  | trSet (a : Nat)
  | pqEnq (a : Nat)
  | pqDeq
  | pqSize
  | pqEmpty
  | tbBuild
  | cgGen
  | bsAsm
  | bpPack
  | bpUnpack
  | ccEncode
  | ccParse
  | bdDecode
  | compress
  | decompress
  deriving DecidableEq, Repr

/-- The mnemonics of R93 as names. -/
inductive Opcode where
  | nop | clr | ftBuild | ndLeaf | ndJoin | trSet | pqEnq | pqDeq | pqSize | pqEmpty
  | tbBuild | cgGen | bsAsm | bpPack | bpUnpack | ccEncode | ccParse | bdDecode | compress | decompress
  deriving DecidableEq, Repr

/-- The four operand formats of R92. -/
inductive Format where
  | z
  | s
  | n
  | nn
  deriving DecidableEq, Repr

/-- Why a word is no command (R94, R95). -/
inductive DecodeError where
  /-- The opcode field is none of the 20 of R93. -/
  | unassignedOpcode (op : Byte)
  /-- Bits 31..26 or a field the format does not use is not 0. -/
  | unusedFieldNotZero (op : Opcode)
  deriving DecidableEq, Repr

end Sys2Proof
end

