-- ==== Sys2Proof/WellFormed.lean ====
section
/-! DEFINITION. Which terms of Instr stand for a command word: a node index operand has 9 bits (R91, R96). -/

namespace Sys2Proof

/-- A node index fits the 9-bit operand fields A and B (R91). -/
def nodeOperandFits (a : Nat) : Bool := decide (a < 512)

/-- The instruction has an encoding: every node index operand fits its field. A Symbol operand always fits. -/
def Instr.wf : Instr → Bool
  | .nop => true
  | .clr => true
  | .ftBuild => true
  | .ndLeaf _ => true
  | .ndJoin a b => nodeOperandFits a && nodeOperandFits b
  | .trSet a => nodeOperandFits a
  | .pqEnq a => nodeOperandFits a
  | .pqDeq => true
  | .pqSize => true
  | .pqEmpty => true
  | .tbBuild => true
  | .cgGen => true
  | .bsAsm => true
  | .bpPack => true
  | .bpUnpack => true
  | .ccEncode => true
  | .ccParse => true
  | .bdDecode => true
  | .compress => true
  | .decompress => true

end Sys2Proof
end

