-- ==== Sys2Proof/Decode.lean ====
section
/-! DEFINITION. Command words: the opcode map R93, the formats R92, legality R94, operand assembly R96; the decoder, total on
every word and refusing by name; and the encoder, from the same tables. -/

namespace Sys2Proof

/-- The opcode column of R93. -/
def Opcode.code : Opcode → Byte
  | .nop => 0x00#8
  | .clr => 0x01#8
  | .ftBuild => 0x10#8
  | .ndLeaf => 0x20#8
  | .ndJoin => 0x21#8
  | .trSet => 0x22#8
  | .pqEnq => 0x28#8
  | .pqDeq => 0x29#8
  | .pqSize => 0x2A#8
  | .pqEmpty => 0x2B#8
  | .tbBuild => 0x30#8
  | .cgGen => 0x40#8
  | .bsAsm => 0x50#8
  | .bpPack => 0x51#8
  | .bpUnpack => 0x52#8
  | .ccEncode => 0x60#8
  | .ccParse => 0x61#8
  | .bdDecode => 0x70#8
  | .compress => 0x80#8
  | .decompress => 0x81#8

/-- The format column of R93. -/
def Opcode.format : Opcode → Format
  | .ndLeaf => .s
  | .ndJoin => .nn
  | .trSet => .n
  | .pqEnq => .n
  | .nop => .z
  | .clr => .z
  | .ftBuild => .z
  | .pqDeq => .z
  | .pqSize => .z
  | .pqEmpty => .z
  | .tbBuild => .z
  | .cgGen => .z
  | .bsAsm => .z
  | .bpPack => .z
  | .bpUnpack => .z
  | .ccEncode => .z
  | .ccParse => .z
  | .bdDecode => .z
  | .compress => .z
  | .decompress => .z

/-- The 20 rows of R93, in the table's order. -/
def Opcode.all : List Opcode :=
  [.nop, .clr, .ftBuild, .ndLeaf, .ndJoin, .trSet, .pqEnq, .pqDeq, .pqSize, .pqEmpty] ++
  [.tbBuild, .cgGen, .bsAsm, .bpPack, .bpUnpack, .ccEncode, .ccParse, .bdDecode, .compress, .decompress]

/-- The mask column of R92: the bits that must match. -/
def Format.mask : Format → Word
  | .z => 0xFFFFFFFF#32
  | .s => 0xFFFF00FF#32
  | .n => 0xFFFE00FF#32
  | .nn => 0xFC0000FF#32

/-- The match column of R93: every masked-in bit other than the opcode's is 0. -/
def Opcode.matchWord (op : Opcode) : Word := op.code.setWidth 32

/-- Field OP, bits 7..0 (R91). -/
def fieldOp (w : Word) : Byte := w.extractLsb' 0 8
/-- The Symbol operand, bits 15..8 (R92 format S). -/
def fieldSym (w : Word) : Byte := w.extractLsb' 8 8
/-- Field A, bits 16..8, a node index (R91, R96). -/
def fieldA (w : Word) : Nat := (w.extractLsb' 8 9).toNat
/-- Field B, bits 25..17, a node index (R91, R96). -/
def fieldB (w : Word) : Nat := (w.extractLsb' 17 9).toNat

/-- Legality of a word for one row: `(w AND mask) = match` (R94). -/
def legalFor (op : Opcode) (w : Word) : Bool := decide (w &&& op.format.mask = op.matchWord)

/-- The row of R93 whose opcode the word holds. -/
def opcodeOf (w : Word) : Option Opcode := Opcode.all.find? (fun op => op.code == fieldOp w)

/-- The command with its operands taken from the word (R96). -/
def assembleOperands (op : Opcode) (w : Word) : Instr :=
  match op with
  | .nop => .nop
  | .clr => .clr
  | .ftBuild => .ftBuild
  | .ndLeaf => .ndLeaf (fieldSym w)
  | .ndJoin => .ndJoin (fieldA w) (fieldB w)
  | .trSet => .trSet (fieldA w)
  | .pqEnq => .pqEnq (fieldA w)
  | .pqDeq => .pqDeq
  | .pqSize => .pqSize
  | .pqEmpty => .pqEmpty
  | .tbBuild => .tbBuild
  | .cgGen => .cgGen
  | .bsAsm => .bsAsm
  | .bpPack => .bpPack
  | .bpUnpack => .bpUnpack
  | .ccEncode => .ccEncode
  | .ccParse => .ccParse
  | .bdDecode => .bdDecode
  | .compress => .compress
  | .decompress => .decompress

/-- The decoder (R94, R95): total on every word; a word that is no legal command is refused by name. -/
def decode (w : Word) : Except DecodeError Instr :=
  match opcodeOf w with
  | none => .error (.unassignedOpcode (fieldOp w))
  | some op => if legalFor op w then .ok (assembleOperands op w) else .error (.unusedFieldNotZero op)

/-- The decoder's answer to a row of spec/opcode_table.json: `w` numbered with bit 0 the least significant bit of the one
32-bit word, the bits at and above `nbits` being 0. No command is longer than 32 bits (R91). -/
def decodeTableWord (nbits w : Nat) : Option Instr :=
  if nbits ≤ 32 then (decode (BitVec.ofNat 32 (w % 2 ^ nbits))).toOption else none

/-- The row of an instruction. -/
def Instr.opcode : Instr → Opcode
  | .nop => .nop
  | .clr => .clr
  | .ftBuild => .ftBuild
  | .ndLeaf _ => .ndLeaf
  | .ndJoin _ _ => .ndJoin
  | .trSet _ => .trSet
  | .pqEnq _ => .pqEnq
  | .pqDeq => .pqDeq
  | .pqSize => .pqSize
  | .pqEmpty => .pqEmpty
  | .tbBuild => .tbBuild
  | .cgGen => .cgGen
  | .bsAsm => .bsAsm
  | .bpPack => .bpPack
  | .bpUnpack => .bpUnpack
  | .ccEncode => .ccEncode
  | .ccParse => .ccParse
  | .bdDecode => .bdDecode
  | .compress => .compress
  | .decompress => .decompress

/-- Field A of an instruction's word as a number: a Symbol with A[8] = 0, a node index, or 0 (R91, R92). -/
def Instr.operandA : Instr → Nat
  | .ndLeaf sym => sym.toNat
  | .ndJoin a _ => a
  | .trSet a => a
  | .pqEnq a => a
  | .nop | .clr | .ftBuild | .pqDeq | .pqSize | .pqEmpty | .tbBuild | .cgGen | .bsAsm | .bpPack | .bpUnpack
  | .ccEncode | .ccParse | .bdDecode | .compress | .decompress => 0

/-- Field B of an instruction's word as a number: the second node index of format NN, else 0 (R91, R92). -/
def Instr.operandB : Instr → Nat
  | .ndJoin _ b => b
  | .nop | .clr | .ftBuild | .ndLeaf _ | .trSet _ | .pqEnq _ | .pqDeq | .pqSize | .pqEmpty | .tbBuild | .cgGen | .bsAsm
  | .bpPack | .bpUnpack | .ccEncode | .ccParse | .bdDecode | .compress | .decompress => 0

/-- The encoder: OP in bits 7..0, A in 16..8, B in 25..17, zero in 31..26 (R91). -/
def encode (i : Instr) : Word :=
  BitVec.ofNat 32 (i.opcode.code.toNat + i.operandA * 2 ^ 8 + i.operandB * 2 ^ 17)

end Sys2Proof
end

