-- ==== Sys2Proof/Config.lean ====
section
/-! DEFINITION. The implementation parameters of R6: the fixed ones as constants, the open ones as a structure; and the
free values (opaque, no body) that stand for what the spec declares unspecified. -/

namespace Sys2Proof

/-- The open parameters of R6 (U18). The machine carries one value of this structure in its state and never changes it. -/
structure Config where
  /-- IBUF_SIZE: input buffer bytes. -/
  ibufSize : Nat
  /-- OBUF_SIZE: output buffer bytes. -/
  obufSize : Nat
  /-- PBUF_SIZE: packed-payload buffer bytes. -/
  pbufSize : Nat
  /-- REG_BASE: host byte address of the register window. -/
  regBase : Nat
  /-- IBUF_BASE: host byte address of `IBUF[0]`. -/
  ibufBase : Nat
  /-- OBUF_BASE: host byte address of `OBUF[0]`. -/
  obufBase : Nat
  deriving DecidableEq, Repr

/-- ALPHABET, the number of distinct Symbols (R6). -/
abbrev Config.alphabet : Nat := 256
/-- NODE_CAP, entries of the node store (R6). -/
abbrev Config.nodeCap : Nat := 511
/-- PQ_CAP, entries of the priority queue (R6). -/
abbrev Config.pqCap : Nat := 511
/-- CODE_MAX, the longest code in bits (R6). -/
abbrev Config.codeMax : Nat := 255
/-- REC_BYTES, bytes of a serialized table record (R6). -/
abbrev Config.recBytes : Nat := 5
/-- Size of the register window in bytes (R66). -/
abbrev Config.regBytes : Nat := 0x1000

/-- BIT_CAP, the bit buffer's capacity in bits, derived from PBUF_SIZE (R6). -/
def Config.bitCap (c : Config) : Nat := 8 * c.pbufSize

/-- The default parameters of R6. -/
def Config.default : Config :=
  { ibufSize := 65536, obufSize := 131072, pbufSize := 65536
    regBase := 0x00000000, ibufBase := 0x00010000, obufBase := 0x00020000 }

/-- Two address windows share no address. -/
abbrev Config.disjoint (base size base' size' : Nat) : Prop := base + size ≤ base' ∨ base' + size' ≤ base

/-- What R6 and R66 ask of the open parameters: the ranges of the sizes, bases that are multiples of 4096, and three windows
that do not overlap and lie in the 32-bit address space (R60). -/
abbrev Config.ok (c : Config) : Prop :=
  (1 ≤ c.ibufSize ∧ c.ibufSize ≤ 2 ^ 32 - 1) ∧ (1 ≤ c.obufSize ∧ c.obufSize ≤ 2 ^ 32 - 1) ∧
  (1 ≤ c.pbufSize ∧ c.pbufSize ≤ 2 ^ 29 - 1) ∧
  (c.regBase % 4096 = 0 ∧ c.ibufBase % 4096 = 0 ∧ c.obufBase % 4096 = 0) ∧
  (c.regBase + Config.regBytes ≤ 2 ^ 32 ∧ c.ibufBase + c.ibufSize ≤ 2 ^ 32 ∧ c.obufBase + c.obufSize ≤ 2 ^ 32) ∧
  Config.disjoint c.regBase Config.regBytes c.ibufBase c.ibufSize ∧
  Config.disjoint c.regBase Config.regBytes c.obufBase c.obufSize ∧
  Config.disjoint c.ibufBase c.ibufSize c.obufBase c.obufSize

/-- The three byte memories of the block (R46, R48, R49). -/
inductive Buffer where
  | ibuf
  | obuf
  | pbuf
  deriving DecidableEq, Repr

/-- FREE VALUE (log 6, 8): the byte that buffer `b` holds at an offset nothing has written since the reset numbered by the
second argument (R50, R288, U9: unspecified). No body: nothing can be proved of it. -/
opaque Config.unwrittenByte : Buffer → Nat → Nat → BitVec 8

/-- FREE VALUE (log 4, 7, 9): the `n`th value drawn for a host read whose data the spec leaves unspecified (R49, R69, R287;
U9, U10, U11). No body: nothing can be proved of it. -/
opaque Config.freeWord : Nat → BitVec 32

end Sys2Proof
end

