-- ==== Sys2Proof/Machine/State.lean ====
section
/-! DEFINITION. The state of the block: the registers of R36, the memories of R46 to R49, the internal structures of R38 to
R46; the events of the host port; the reasons a step can stop; and the state after reset (R50). -/

namespace Sys2Proof.Machine

/-- A byte memory: (offset, byte) pairs, offsets strictly rising. An unlisted offset holds no known byte (R50, U9), so no
entry can equal what an unlisted offset reads as, and every written offset is listed. -/
abbrev Memory := List Host.Cell

/-- The canonical form of a memory: offsets strictly rising. -/
abbrev Memory.wf (m : Memory) : Prop := m.Pairwise (fun x y => x.1 < y.1)

/-- A node of the node store: exactly these two cases (R40). A weight is a natural below `2^40` in every state a run reaches
(R42, R151), so the 64-bit field never overflows. -/
inductive Node where
  | leaf (sym : Byte) (weight : Nat)
  | internal (weight left right : Nat)
  deriving DecidableEq, Repr

/-- An entry of the priority queue: the weight of a node and the node's index (R43). -/
structure PqEntry where
  weight : Nat
  idx : Nat
  deriving DecidableEq, Repr

/-- The frequency table: pairs (symbol, count) in iteration order (R38). -/
abbrev FreqTable := List (Byte × Word)

/-- The code table: one entry per Symbol, none or the Symbol's code (R45). -/
abbrev CodeTable := Vector (Option Bits) 256

/-- The code table with every entry none (R50, R51). -/
def CodeTable.empty : CodeTable := Vector.replicate 256 none

/-- The eight error kinds (R250). -/
inductive ErrKind where
  | missingInput
  | missingTree
  | malformedContainer
  | unknownSymbol
  | illegalCommand
  | precondition
  | capacity
  | missingCodeTable
  deriving DecidableEq, Repr

/-- `raise kind(info)`: an error kind with its ERR_INFO value (R251). -/
structure CmdError where
  kind : ErrKind
  info : Nat
  deriving DecidableEq, Repr

/-- The registers of the map R36. -/
inductive Reg where
  | cmd | status | ctrl | errCode | errInfo | arg0 | res0 | res1 | res2 | inLen | outLen
  | ftN | nodeN | root | pqSize | bitLen | pkLen | pad | hdrLen
  deriving DecidableEq, Repr

/-- One access of the host at the port: a byte address, a width in bytes, and for a write the data (R60, R67, R68). -/
inductive Access where
  | read (addr : Word) (bytes : Nat)
  | write (addr : Word) (bytes : Nat) (data : Word)
  deriving DecidableEq, Repr

/-- What reaches the block next: an access of the host (R75), the host waiting until BUSY is 0 (R99, `WAIT`), or reset
(R280). -/
inductive PortEvent where
  | access (a : Access)
  | wait
  | reset
  deriving DecidableEq, Repr

/-- What the port answers to an access: a register's 32 bits, a window byte, the acceptance of a write, or a bus error, which
for a refused read comes with data (R69, R71). -/
inductive PortResp where
  | word (v : Word)
  | byte (b : Byte)
  | ack
  | busError (data : Option Word)
  deriving DecidableEq, Repr

/-- Reasons a step can end in a fault: NONE. The block has no access fault (R72), its eight error kinds are next states (R256),
a refused access is an answer on the port (R69), and a byte nothing has written reads as a free value (log 6). -/
inductive Fault where
  deriving DecidableEq, Repr

/-- Reasons a step can be refused. -/
inductive Refusal where
  /-- Raised by an arm of `exec` for an instruction whose meaning is not written. No arm raises it: all 20 are modelled. Safe. -/
  | notModelled (mnemonic : String)
  /-- Raised by a host write to IBUF, IN_LEN or ARG0 while BUSY = 1: it takes effect at an unspecified point of the running
  command and makes every output of it unspecified; "a model should refuse such a host" (R287; U10: refuse; log 4). Safe: a
  run with such a host has no next state here. -/
  | hostWriteWhileBusy
  deriving DecidableEq, Repr

/-- The whole state (R20), then the model's own fields. -/
structure State where
  /-- The accepted command word while a command executes; STATUS.BUSY is 1 exactly while it is present (R25, R26, R90). -/
  running : Option Word
  /-- STATUS.DONE (R27). -/
  done : Bool
  /-- STATUS.ERR (R28). -/
  err : Bool
  /-- STATUS.TREE_VALID (R29). -/
  treeValid : Bool
  /-- STATUS.CT_VALID (R29). -/
  ctValid : Bool
  /-- STATUS.OVR (R30). -/
  ovr : Bool
  /-- CTRL.IE (R31). -/
  ie : Bool
  /-- ERR_CODE bits 7..0 (R32). -/
  errCode : Byte
  /-- ERR_INFO (R32). -/
  errInfo : Word
  /-- ARG0 (R21). -/
  arg0 : Word
  /-- RES0 (R21). -/
  res0 : Word
  /-- RES1 (R21). -/
  res1 : Word
  /-- RES2 (R21). -/
  res2 : Word
  /-- IN_LEN (R33). -/
  inLen : Word
  /-- OUT_LEN (R34). -/
  outLen : Nat
  /-- The index of the active tree's root, meaningful while TREE_VALID = 1; the register ROOT reads 0 otherwise (R35, R44). -/
  root : Nat
  /-- PK_LEN, the number of valid bytes of PBUF (R35, R46). -/
  pkLen : Nat
  /-- PAD (R35). -/
  pad : Nat
  /-- HDR_LEN (R35). -/
  hdrLen : Nat
  /-- FT, the frequency table (R38). -/
  ft : FreqTable
  /-- NODE, the node store; node `i` is the list's entry `i` (R40). -/
  node : List Node
  /-- PQ, the priority queue, head first (R43). -/
  pq : List PqEntry
  /-- CT, the code table (R45). -/
  ct : CodeTable
  /-- BITBUF (R46). -/
  bitbuf : Bits
  /-- PBUF (R46). -/
  pbuf : Memory
  /-- IBUF (R48). -/
  ibuf : Memory
  /-- OBUF (R49). -/
  obuf : Memory
  /-- The model's own: the open parameters of R6, never changed (log 5). -/
  cfg : Config
  /-- The model's own: the number of resets seen, an argument of the free contents of memory after reset (log 6). -/
  epoch : Nat
  /-- The model's own: the number of free values that host reads have drawn (log 9). -/
  draws : Nat
  /-- The model's own: what reaches the port next, in order (R75; log 1). -/
  port : List PortEvent
  /-- The model's own: the port's answer to the last access (log 1). -/
  resp : Option PortResp
  deriving DecidableEq, Repr

/-- The state after reset (R36, R50, R281): every register at its reset value, every structure empty, nothing known of the three
memories, no command running, with the default parameters of R6 and nothing at the port. -/
def State.reset : State where
  running := none
  done := false
  err := false
  treeValid := false
  ctValid := false
  ovr := false
  ie := false
  errCode := 0
  errInfo := 0
  arg0 := 0
  res0 := 0
  res1 := 0
  res2 := 0
  inLen := 0
  outLen := 0
  root := 0
  pkLen := 0
  pad := 0
  hdrLen := 0
  ft := []
  node := []
  pq := []
  ct := CodeTable.empty
  bitbuf := []
  pbuf := []
  ibuf := []
  obuf := []
  cfg := Config.default
  epoch := 0
  draws := 0
  port := []
  resp := none

end Sys2Proof.Machine
end

