-- ==== Sys2Proof/Machine/Ops.lean ====
section
/-! DEFINITION. The named operations over the state: the byte memories (R46, R48, R49), bits and bytes (R7, R9), acceptance and
completion of a command (R90), `clear_instance()` (R51), the error entry (R256) and the return from the error state (R231, R258),
and the reset event (R280). -/

namespace Sys2Proof.Machine

/-! ## Byte memories -/

/-- The byte known at an offset, none where nothing has been written. -/
def Memory.read : Memory → Nat → Option Byte
  | [], _ => none
  | (k, b) :: m, a => if a = k then some b else Memory.read m a

/-- One byte stored at an offset, in canonical form. -/
def Memory.write : Memory → Nat → Byte → Memory
  | [], a, b => [(a, b)]
  | (k, c) :: m, a, b =>
    if a < k then (a, b) :: (k, c) :: m
    else if a = k then (a, b) :: m
    else (k, c) :: Memory.write m a b

/-- `MemWrite(S, a, n, v)`: the bytes of a list at ascending offsets from `a` (R9). -/
def Memory.writeList : Memory → Nat → List Byte → Memory
  | m, _, [] => m
  | m, a, b :: bs => Memory.writeList (Memory.write m a b) (a + 1) bs

/-- The memory that is buffer `b`. -/
def State.memory (s : State) : Buffer → Memory
  | .ibuf => s.ibuf
  | .obuf => s.obuf
  | .pbuf => s.pbuf

/-- The one definition of what an offset reads as: the byte written there, or the free value of an offset that nothing has
written since reset (R50, R288, U9; log 6, 8). -/
def State.byteAt (s : State) (b : Buffer) (a : Nat) : Byte :=
  ((s.memory b).read a).getD (Config.unwrittenByte b s.epoch a)

/-- `MemRead(S, a, n)`: the `n` bytes from offset `a`, lowest offset first (R9). -/
def State.bytesAt (s : State) (b : Buffer) (a n : Nat) : List Byte :=
  (List.range n).map (fun k => s.byteAt b (a + k))

/-- `IBUF[0 .. IN_LEN-1]`, the input (R33). -/
def State.input (s : State) : List Byte := s.bytesAt .ibuf 0 s.inLen.toNat

/-- `PBUF[0 .. PK_LEN-1]`, the packed payload (R46). -/
def State.payload (s : State) : List Byte := s.bytesAt .pbuf 0 s.pkLen

/-- `OBUF[0 .. OUT_LEN-1]`, the output (R49). -/
def State.output (s : State) : List Byte := s.bytesAt .obuf 0 s.outLen

/-- A byte string stored as the output: `MemWrite(OBUF, 0, len(out), out)`, then `OUT_LEN <- len(out)` (R203, R222). -/
def State.writeOutput (s : State) (out : List Byte) : State :=
  { s with obuf := Memory.writeList s.obuf 0 out, outLen := out.length }

/-- A byte string stored as the payload: `MemWrite(PBUF, 0, n, bytes)`, then `PK_LEN <- n` (R184, R206). -/
def State.writePayload (s : State) (bytes : List Byte) : State :=
  { s with pbuf := Memory.writeList s.pbuf 0 bytes, pkLen := bytes.length }

/-! ## Bits and bytes -/

/-- `bits8(b)`: the bits of a byte, most significant first (R7, R9). -/
def bits8 (b : Byte) : Bits := (List.range 8).map (fun k => b.getLsbD (7 - k))

/-- `byte(bs)`: the number an 8-element bit string writes, its first bit the most significant (R9, R61). -/
def byteOfBits (bs : Bits) : Byte := BitVec.ofNat 8 (bs.foldl (fun acc b => acc * 2 + b.toNat) 0)

/-! ## The code table -/

/-- `CT[s]` (R45). -/
def CodeTable.get (ct : CodeTable) (s : Byte) : Option Bits := ct[s.toNat]'s.isLt

/-- `CT[s] <- c` (R45). -/
def CodeTable.assign (ct : CodeTable) (s : Byte) (c : Bits) : CodeTable := ct.set s.toNat (some c) s.isLt

/-! ## Life of a command -/

/-- STATUS.BUSY (R26). -/
def State.busy (s : State) : Bool := s.running.isSome

/-- R90 step 3: the word is accepted, `DONE <- 0`, `BUSY <- 1`; the word stands for the data of the CMD write (R79). -/
def State.accept (s : State) (w : Word) : State := { s with running := some w, done := false }

/-- R90 step 6: completion without error, `DONE <- 1`, `BUSY <- 0`. -/
def State.complete (s : State) : State := { s with done := true, running := none }

/-- `clear_instance()` (R51). -/
def State.clearInstance (s : State) : State :=
  { s with
    ft := [], node := [], pq := [], root := 0, treeValid := false, ctValid := false, ct := CodeTable.empty
    bitbuf := [], pkLen := 0, pad := 0, hdrLen := 0, outLen := 0, res0 := 0, res1 := 0, res2 := 0 }

/-- The code of an error kind (R250). -/
def ErrKind.code : ErrKind → Byte
  | .missingInput => 1
  | .missingTree => 2
  | .malformedContainer => 3
  | .unknownSymbol => 4
  | .illegalCommand => 5
  | .precondition => 6
  | .capacity => 7
  | .missingCodeTable => 8

/-- The error entry of `raise kind(info)` (R256), on the state before the command: what the command had already changed is
cleared, so the state after an error depends on the state before the command and the error alone (R257; log 14). -/
def State.errorEntry (s : State) (e : CmdError) : State :=
  { s.clearInstance with
    err := true, done := false, running := none, errCode := e.kind.code, errInfo := BitVec.ofNat 32 e.info }

/-- What CLR does besides `clear_instance()`: it leaves the error state (R231, R258). -/
def State.leaveError (s : State) : State := { s with err := false, ovr := false, errCode := 0, errInfo := 0 }

/-- A command whose body succeeded completes; one whose body raised an error takes the error entry. Either way there is a next
state (R10, R90 step 6, R285). -/
def finish (s : State) (r : Except CmdError State) : Host.Outcome State Fault Refusal :=
  match r with
  | .ok t => .next t.complete
  | .error e => .next (s.errorEntry e)

/-- What depends on FT is invalidated: `TREE_VALID <- 0`, `CT_VALID <- 0` (R29; R130, R206 step 1). -/
def State.invalidate (s : State) : State := { s with treeValid := false, ctValid := false }

/-- Reset (R280, R50): every register and structure at its reset value and nothing known of the three memories; a command in
progress is abandoned. The parameters, the port's later events and the counters of free values are no state of the block. -/
def State.resetEvent (s : State) : State :=
  { State.reset with cfg := s.cfg, epoch := s.epoch + 1, draws := s.draws, port := s.port }

end Sys2Proof.Machine
end

