-- ==== Sys2Proof/Machine/Operands.lean ====
section
/-! DEFINITION. Operands at execution (R96): node indices checked against the node store, the weight operand of ND_LEAF from
ARG0, and the check of IN_LEN that every command reading IBUF makes first (R33). -/

namespace Sys2Proof.Machine

/-- The weight of a node (R40). -/
def Node.weight : Node → Nat
  | .leaf _ w => w
  | .internal w _ _ => w

/-- `weight(NODE[i])`; 0 where no node has that index, which no rule reads. -/
def weightAt (nodes : List Node) (i : Nat) : Nat :=
  match nodes[i]? with
  | some n => n.weight
  | none => 0

/-- The node is an internal node with child `i`. -/
def Node.isParentOf (i : Nat) : Node → Bool
  | .leaf _ _ => false
  | .internal _ l r => l == i || r == i

/-- The node is a leaf of symbol `x`. -/
def Node.isLeafOf (x : Byte) : Node → Bool
  | .leaf y _ => y == x
  | .internal _ _ _ => false

/-- `has_parent(i)` (R41). -/
def hasParent (nodes : List Node) (i : Nat) : Bool := nodes.any (Node.isParentOf i)

/-- `has_leaf(x)` (R41). -/
def hasLeaf (nodes : List Node) (x : Byte) : Bool := nodes.any (Node.isLeafOf x)

/-- NODE_N, the number of allocated nodes (R35, R40). -/
def State.nodeN (s : State) : Nat := s.node.length

/-- A node index operand names an allocated node (R95: otherwise `PreconditionError(2)`). -/
def State.allocated (s : State) (a : Nat) : Bool := decide (a < s.nodeN)

/-- The weight operand of ND_LEAF: `zext_64(ARG0)` (R96, R153). -/
def State.leafWeight (s : State) : Nat := s.arg0.toNat

/-- `IN_LEN > IBUF_SIZE`, the check R33 asks of a command that reads IBUF (otherwise `PreconditionError(1)`). -/
def State.inputTooLong (s : State) : Bool := decide (s.cfg.ibufSize < s.inLen.toNat)

/-- `raise PreconditionError(info)` (R250). -/
def preconditionError (info : Nat) : CmdError := ⟨.precondition, info⟩

/-- `raise CapacityError(info)` (R250). -/
def capacityError (info : Nat) : CmdError := ⟨.capacity, info⟩

/-- `raise MalformedContainerError(info)` (R250). -/
def malformedError (info : Nat) : CmdError := ⟨.malformedContainer, info⟩

/-- `raise UnknownSymbolError(info)` (R250). -/
def unknownSymbolError (info : Nat) : CmdError := ⟨.unknownSymbol, info⟩

/-- `raise MissingInputError(0)` (R251). -/
def missingInputError : CmdError := ⟨.missingInput, 0⟩

/-- `raise MissingTreeError(0)` (R251). -/
def missingTreeError : CmdError := ⟨.missingTree, 0⟩

/-- `raise MissingCodeTableError(0)` (R251). -/
def missingCodeTableError : CmdError := ⟨.missingCodeTable, 0⟩

/-- `raise IllegalCommandError(w)` (R95). -/
def illegalCommandError (w : Word) : CmdError := ⟨.illegalCommand, w.toNat⟩

end Sys2Proof.Machine
end

