-- ==== Sys2Proof/Machine/Flags.lean ====
section
/-! DEFINITION. The flags: STATUS and CTRL as the host reads them (R25, R31), the flag that mirrors the queue (R30), and the
interrupt request output (R262). -/

namespace Sys2Proof.Machine

/-- STATUS.PQ_EMPTY equals `len(PQ) = 0` at all times (R30). -/
def State.pqEmpty (s : State) : Bool := s.pq.isEmpty

/-- A flag at a bit position of a register. -/
def flagBit (b : Bool) (n : Nat) : Nat := if b then 2 ^ n else 0

/-- STATUS (R25): BUSY 0, DONE 1, ERR 2, TREE_VALID 3, CT_VALID 4, PQ_EMPTY 5, OVR 6; bits 31 to 7 are 0.
DESIGN CHOICE (log 25): while BUSY is 1 the flags of the instance and ERR still stand as they were before the command. -/
def State.statusWord (s : State) : Word :=
  BitVec.ofNat 32 (flagBit s.busy 0 + flagBit s.done 1 + flagBit s.err 2 + flagBit s.treeValid 3 + flagBit s.ctValid 4 +
    flagBit s.pqEmpty 5 + flagBit s.ovr 6)

/-- CTRL (R31): IE in bit 0; bits 31 to 1 are 0. -/
def State.ctrlWord (s : State) : Word := BitVec.ofNat 32 (flagBit s.ie 0)

/-- A write of CTRL: bit 0 is IE, the reserved bits are ignored (R31). -/
def State.writeCtrl (s : State) (v : Word) : State := { s with ie := v.getLsbD 0 }

/-- The interrupt request output: `irq = CTRL.IE AND (STATUS.DONE OR STATUS.ERR)`, level-sensitive (R262). -/
def State.irq (s : State) : Bool := s.ie && (s.done || s.err)

end Sys2Proof.Machine
end

