-- ==== Sys2Proof/Machine/BitPacker.lean ====
section
/-! DEFINITION. Bit-string assembly, bit_packer and bit_unpacker: BS_ASM, BP_PACK, BP_UNPACK (44_bit_packer.md R180 to R188). -/

namespace Sys2Proof.Machine

/-- The loop of BS_ASM (R181): the codes of the input symbols appended in input order; at the first symbol that has no code or
whose code does not fit, the error of R181. -/
def assembleBits (ct : CodeTable) (cap : Nat) : List Byte → Bits → Except CmdError Bits
  | [], bits => .ok bits
  | x :: xs, bits =>
    match ct.get x with
    | none => .error (preconditionError 8)
    | some c => if bits.length + c.length > cap then .error (capacityError 2) else assembleBits ct cap xs (bits ++ c)

/-- The pseudocode of BS_ASM (R181). -/
def bsAsmBody (s : State) : Except CmdError State :=
  if !s.ctValid then .error missingCodeTableError
  else if s.inputTooLong then .error (preconditionError 1)
  else
    match assembleBits s.ct s.cfg.bitCap s.input [] with
    | .error e => .error e
    | .ok bits => .ok { s with bitbuf := bits }

/-- The padding count of `pack_bits` for a bit string of `n` bits, 0 to 7 (R183). -/
def padCount (n : Nat) : Nat := (8 - n % 8) % 8

/-- The bytes of `pack_bits(bits)` (R183): zero bits appended to a whole number of bytes, each group of 8 read most significant
bit first. -/
def packBytes (bits : Bits) : List Byte :=
  let padded := bits ++ List.replicate (padCount bits.length) false
  (List.range (padded.length / 8)).map (fun j => byteOfBits ((padded.drop (8 * j)).take 8))

/-- The pseudocode of BP_PACK (R184). -/
def bpPackBody (s : State) : Except CmdError State :=
  .ok { s.writePayload (packBytes s.bitbuf) with pad := padCount s.bitbuf.length }

/-- `unpack_bytes(bytes)` (R186). -/
def unpackBytes (bytes : List Byte) : Bits := bytes.flatMap bits8

/-- The pseudocode of BP_UNPACK (R187). -/
def bpUnpackBody (s : State) : Except CmdError State := .ok { s with bitbuf := unpackBytes s.payload }

/-- BS_ASM (R181). -/
def execBsAsm (s : State) : Host.Outcome State Fault Refusal := finish s (bsAsmBody s)

/-- BP_PACK (R184). -/
def execBpPack (s : State) : Host.Outcome State Fault Refusal := finish s (bpPackBody s)

/-- BP_UNPACK (R187). -/
def execBpUnpack (s : State) : Host.Outcome State Fault Refusal := finish s (bpUnpackBody s)

end Sys2Proof.Machine
end

