-- ==== Sys2Proof/Machine/BitstreamDecoder.lean ====
section
/-! DEFINITION. bitstream_decoder: BD_DECODE (46_bitstream_decoder.md R220 to R227). -/

namespace Sys2Proof.Machine

/-- All Symbols, ascending. -/
def allSymbols : List Byte := (List.range Config.alphabet).map (BitVec.ofNat 8)

/-- The inverse table `inv(bs)`: the symbol whose code is `bs`; at most one has it (R45, R174). -/
def symbolOf (ct : CodeTable) (bs : Bits) : Option Byte := allSymbols.find? (fun x => ct.get x == some bs)

/-- `acc` is a proper prefix of some code (R222, R224). -/
def isProperCodePrefix (ct : CodeTable) (acc : Bits) : Bool :=
  allSymbols.any (fun x =>
    match ct.get x with
    | some c => acc.isPrefixOf c && c != acc
    | none => false)

/-- The loop of R222 over the bits still to read: `i` the position of the next bit, `acc` the bits since the last symbol, `out`
the symbols so far. When the bits end inside a code, `i` is V (R223). -/
def decodeBits (ct : CodeTable) (cap : Nat) : Bits → Nat → Bits → List Byte → Except CmdError (List Byte)
  | [], i, acc, out => if acc.isEmpty then .ok out else .error (unknownSymbolError i)
  | b :: bits, i, acc, out =>
    match symbolOf ct (acc ++ [b]) with
    | some x => if out.length = cap then .error (capacityError 4) else decodeBits ct cap bits (i + 1) [] (out ++ [x])
    | none =>
      if isProperCodePrefix ct (acc ++ [b]) then decodeBits ct cap bits (i + 1) (acc ++ [b]) out
      else .error (unknownSymbolError i)

/-- The pseudocode of BD_DECODE (R222): the first `V = BIT_LEN - PAD` bits only (R221). -/
def bdDecodeBody (s : State) : Except CmdError State :=
  if !s.ctValid then .error missingCodeTableError
  else if s.pad > s.bitbuf.length then .error (preconditionError 9)
  else
    match decodeBits s.ct s.cfg.obufSize (s.bitbuf.take (s.bitbuf.length - s.pad)) 0 [] [] with
    | .error e => .error e
    | .ok out => .ok (s.writeOutput out)

/-- BD_DECODE (R222). -/
def execBdDecode (s : State) : Host.Outcome State Fault Refusal := finish s (bdDecodeBody s)

end Sys2Proof.Machine
end

