-- ==== Sys2Proof/Machine/CodeTableGen.lean ====
section
/-! DEFINITION. code_table_gen: CG_GEN (43_code_table_gen.md R170 to R176). -/

namespace Sys2Proof.Machine

/-- `walk(i, prefix)` of R171: a leaf's code is the path to it, 0 for a left step, 1 for a right step. A path meets each node at
most once, so a bound of NODE_N nodes on its length is never reached in a store that meets R42 (log 11). -/
def walkTree (nodes : List Node) : Nat → Nat → Bits → CodeTable → CodeTable
  | 0, _, _, ct => ct
  | n + 1, i, path, ct =>
    match nodes[i]? with
    | some (.leaf x _) => ct.assign x path
    | some (.internal _ l r) => walkTree nodes n r (path ++ [true]) (walkTree nodes n l (path ++ [false]) ct)
    | none => ct

/-- The code table of the tree under `root`: a leaf root has the code `0` (R172), else the walk from the root (R171). -/
def genCodes (nodes : List Node) (root : Nat) : CodeTable :=
  match nodes[root]? with
  | some (.leaf x _) => CodeTable.empty.assign x [false]
  | some (.internal _ _ _) => walkTree nodes nodes.length root [] CodeTable.empty
  | none => CodeTable.empty

/-- The pseudocode of CG_GEN (R171). -/
def cgGenBody (s : State) : Except CmdError State :=
  if s.treeValid then .ok { s with ct := genCodes s.node s.root, ctValid := true }
  else .error missingTreeError

/-- CG_GEN (R171). -/
def execCgGen (s : State) : Host.Outcome State Fault Refusal := finish s (cgGenBody s)

end Sys2Proof.Machine
end

