-- ==== Sys2Proof/Machine/ContainerCodec.lean ====
section
/-! DEFINITION. container_codec and container_codec_header_parser: CC_ENCODE, CC_PARSE (45_container_codec.md R200 to R210), with
the byte formats of 30_encoding.md R100 to R109. -/

namespace Sys2Proof.Machine

/-- LF, the byte 0x0A (R104). -/
def byteLF : Byte := 0x0A#8

/-- The ASCII digit of a number below 10: the byte `0x30 + k` (R104, R105). -/
def asciiDigit (k : Nat) : Byte := BitVec.ofNat 8 (0x30 + k)

/-- A byte is an ASCII digit, 0x30 to 0x39 (R104). -/
def isAsciiDigit (b : Byte) : Bool := decide (0x30 ≤ b.toNat) && decide (b.toNat ≤ 0x39)

/-- `dec(n)`: ASCII decimal, most significant digit first, no leading zero; `0` is one digit (R105). -/
def decText (n : Nat) : List Byte :=
  if n = 0 then [asciiDigit 0] else (Nat.digits 10 n).reverse.map asciiDigit

/-- The value of a digit string, most significant digit first, with no bound (R105). -/
def digitsValue (bs : List Byte) : Nat := bs.foldl (fun acc b => acc * 10 + (b.toNat - 0x30)) 0

/-- `undec(bs)`: defined when the text is not empty and all digits; leading zeros are accepted (R105). -/
def undecText (bs : List Byte) : Option Nat :=
  if !bs.isEmpty && bs.all isAsciiDigit then some (digitsValue bs) else none

/-- The 5-byte record of a pair: the symbol, then the count most significant byte first (R108). -/
def serRecord (p : Byte × Word) : List Byte :=
  [p.1, p.2.extractLsb' 24 8, p.2.extractLsb' 16 8, p.2.extractLsb' 8 8, p.2.extractLsb' 0 8]

/-- `ser(FT)`: the records in list order (R201). -/
def serTable (ft : FreqTable) : List Byte := ft.flatMap serRecord

/-- `meta(L, p)`: the metadata line (R202). -/
def metaLine (len pad : Nat) : List Byte := decText len ++ [byteLF, asciiDigit pad, byteLF]

/-- The container: metadata line, serialized table, payload, in that order (R100, R203). -/
def containerBytes (ft : FreqTable) (pad : Nat) (payload : List Byte) : List Byte :=
  metaLine (serTable ft).length pad ++ serTable ft ++ payload

/-- The pseudocode of CC_ENCODE (R203). -/
def ccEncodeBody (s : State) : Except CmdError State :=
  let out := containerBytes s.ft s.pad s.payload
  if out.length > s.cfg.obufSize then .error (capacityError 4)
  else .ok { s.writeOutput out with hdrLen := (serTable s.ft).length }

/-- The count of a record, most significant byte first (R108, R204). -/
def recordCount (b1 b2 b3 b4 : Byte) : Word :=
  BitVec.ofNat 32 (b1.toNat * 2 ^ 24 + b2.toNat * 2 ^ 16 + b3.toNat * 2 ^ 8 + b4.toNat)

/-- The record loop of `deser(T)` (R204): in ascending order, cause 7 for a count of 0 before cause 8 for a symbol met before. -/
def deserRecords : List Byte → FreqTable → Except Nat FreqTable
  | x :: b1 :: b2 :: b3 :: b4 :: rest, ft =>
    if recordCount b1 b2 b3 b4 = 0 then .error 7
    else if ft.any (fun p => p.1 == x) then .error 8
    else deserRecords rest (ft ++ [(x, recordCount b1 b2 b3 b4)])
  | _, ft => .ok ft

/-- `deser(T)` (R204): cause 6 for a length that is no multiple of 5, else the records. -/
def deserTable (bytes : List Byte) : Except Nat FreqTable :=
  if bytes.length % Config.recBytes ≠ 0 then .error 6 else deserRecords bytes []

/-- The metadata line as CC_PARSE reads it: the table length, the padding count, and the offset of the table (R206). -/
structure MetaFields where
  len : Nat
  pad : Nat
  tableAt : Nat
  deriving DecidableEq, Repr

/-- What CC_PARSE commits (R206). -/
structure Parsed where
  table : FreqTable
  hdrLen : Nat
  pad : Nat
  payload : List Byte
  deriving DecidableEq, Repr

/-- Step 4 of R206: the padding digit at `p + 1` and the LF at `p + 2`. -/
def parsePadding (buf : List Byte) (len p : Nat) : Except CmdError MetaFields :=
  match buf[p + 1]? with
  | none => .error (malformedError 3)
  | some c =>
    if c.toNat < 0x30 ∨ 0x37 < c.toNat then .error (malformedError 3)
    else if buf[p + 2]? ≠ some byteLF then .error (malformedError 4)
    else .ok ⟨len, c.toNat - 0x30, p + 3⟩

/-- Steps 2 to 4 of R206 on the bytes of the input. -/
def parseMeta (buf : List Byte) : Except CmdError MetaFields :=
  match buf.findIdx? (fun b => b == byteLF) with
  | none => .error (malformedError 1)
  | some p =>
    match undecText (buf.take p) with
    | none => .error (malformedError 2)
    | some len => parsePadding buf len p

/-- Steps 5 to 7 of R206: the table by its length, then the payload. -/
def parseSegments (pbufSize : Nat) (buf : List Byte) (m : MetaFields) : Except CmdError Parsed :=
  if m.len > buf.length - m.tableAt then .error (malformedError 5)
  else
    match deserTable ((buf.drop m.tableAt).take m.len) with
    | .error cause => .error (malformedError cause)
    | .ok table =>
      let payload := buf.drop (m.tableAt + m.len)
      if payload.length = 0 ∧ m.pad ≠ 0 then .error (malformedError 9)
      else if payload.length > pbufSize then .error (capacityError 3)
      else .ok ⟨table, m.len, m.pad, payload⟩

/-- Steps 2 to 7 of R206. -/
def parseContainer (pbufSize : Nat) (buf : List Byte) : Except CmdError Parsed :=
  match parseMeta buf with
  | .error e => .error e
  | .ok m => parseSegments pbufSize buf m

/-- The commit of R206. -/
def State.commitParse (s : State) (p : Parsed) : State :=
  { s.writePayload p.payload with ft := p.table, hdrLen := p.hdrLen, pad := p.pad }

/-- The pseudocode of CC_PARSE (R206). -/
def ccParseBody (s : State) : Except CmdError State :=
  if s.inputTooLong then .error (preconditionError 1)
  else
    match parseContainer s.cfg.pbufSize s.input with
    | .error e => .error e
    | .ok p => .ok (s.invalidate.commitParse p)

/-- CC_ENCODE (R203). -/
def execCcEncode (s : State) : Host.Outcome State Fault Refusal := finish s (ccEncodeBody s)

/-- CC_PARSE (R206). -/
def execCcParse (s : State) : Host.Outcome State Fault Refusal := finish s (ccParseBody s)

end Sys2Proof.Machine
end

