-- ==== Sys2Proof/Machine/FrequencyTable.lean ====
section
/-! DEFINITION. frequency_table: FT_BUILD (40_frequency_table.md R130 to R133). -/

namespace Sys2Proof.Machine

/-- One symbol counted: its pair incremented in place, or appended with count 1 (R130, R131). -/
def countSymbol : FreqTable → Byte → FreqTable
  | [], x => [(x, 1)]
  | (y, c) :: ft, x => if y = x then (y, c + 1) :: ft else (y, c) :: countSymbol ft x

/-- The loop of R130: every input symbol counted, ascending offsets. -/
def buildTable (xs : List Byte) : FreqTable := xs.foldl countSymbol []

/-- The pseudocode of FT_BUILD (R130). -/
def ftBuildBody (s : State) : Except CmdError State :=
  if s.inputTooLong then .error (preconditionError 1)
  else .ok { s.invalidate with ft := buildTable s.input }

/-- FT_BUILD (R130). -/
def execFtBuild (s : State) : Host.Outcome State Fault Refusal := finish s (ftBuildBody s)

end Sys2Proof.Machine
end

