-- ==== Sys2Proof/Machine/PriorityQueue.lean ====
section
/-! DEFINITION. priority_queue: PQ_ENQ, PQ_DEQ, PQ_SIZE, PQ_EMPTY (41_priority_queue.md R140 to R144). -/

namespace Sys2Proof.Machine

/-- `pq_insert(w, i)`: after the last entry whose weight is at most `w`, first come first served among equals (R140). -/
def pqInsert (q : List PqEntry) (e : PqEntry) : List PqEntry :=
  let p := q.countP (fun x => x.weight ≤ e.weight)
  q.take p ++ e :: q.drop p

/-- `pq_remove_head()` (R140); none on an empty queue. -/
def pqRemoveHead : List PqEntry → Option (PqEntry × List PqEntry)
  | [] => none
  | e :: q => some (e, q)

/-- The pseudocode of PQ_ENQ (R141). -/
def pqEnqBody (a : Nat) (s : State) : Except CmdError State :=
  if !s.allocated a then .error (preconditionError 2)
  else if s.pq.length = Config.pqCap then .error (capacityError 1)
  else
    let q := pqInsert s.pq ⟨weightAt s.node a, a⟩
    .ok { s with pq := q, res0 := BitVec.ofNat 32 q.length }

/-- The pseudocode of PQ_DEQ (R142): RES0 the index, RES1 and RES2 the low and high word of the weight. -/
def pqDeqBody (s : State) : Except CmdError State :=
  match pqRemoveHead s.pq with
  | none => .error (preconditionError 7)
  | some (e, q) =>
    .ok { s with
      pq := q, res0 := BitVec.ofNat 32 e.idx
      res1 := BitVec.ofNat 32 e.weight, res2 := BitVec.ofNat 32 (e.weight / 2 ^ 32) }

/-- The pseudocode of PQ_SIZE (R143). -/
def pqSizeBody (s : State) : Except CmdError State := .ok { s with res0 := BitVec.ofNat 32 s.pq.length }

/-- The pseudocode of PQ_EMPTY (R144). -/
def pqEmptyBody (s : State) : Except CmdError State := .ok { s with res0 := BitVec.ofNat 32 (flagBit s.pqEmpty 0) }

/-- PQ_ENQ a (R141). -/
def execPqEnq (a : Nat) (s : State) : Host.Outcome State Fault Refusal := finish s (pqEnqBody a s)

/-- PQ_DEQ (R142). -/
def execPqDeq (s : State) : Host.Outcome State Fault Refusal := finish s (pqDeqBody s)

/-- PQ_SIZE (R143). -/
def execPqSize (s : State) : Host.Outcome State Fault Refusal := finish s (pqSizeBody s)

/-- PQ_EMPTY (R144). -/
def execPqEmpty (s : State) : Host.Outcome State Fault Refusal := finish s (pqEmptyBody s)

end Sys2Proof.Machine
end

