-- ==== Sys2Proof/Machine/TreeBuilder.lean ====
section
/-! DEFINITION. tree_builder and tree_rebuild_from_table: ND_LEAF, ND_JOIN, TR_SET, TB_BUILD (42_tree_builder.md R150 to R163). -/

namespace Sys2Proof.Machine

/-- The internal node of `join(a, b)`: the lighter node is `left`, on equal weights `a` is (R154). -/
def joinNode (nodes : List Node) (a b : Nat) : Node :=
  let wa := weightAt nodes a
  let wb := weightAt nodes b
  if wa ≤ wb then .internal (wa + wb) a b else .internal (wa + wb) b a

/-- A new node takes index NODE_N (R40, R152); RES0 gets the index (R153, R155). -/
def State.allocate (s : State) (n : Node) : State :=
  { s with node := s.node ++ [n], res0 := BitVec.ofNat 32 s.nodeN }

/-- The pseudocode of ND_LEAF (R153). -/
def ndLeafBody (sym : Byte) (s : State) : Except CmdError State :=
  if s.arg0 = 0 then .error (preconditionError 3)
  else if hasLeaf s.node sym then .error (preconditionError 4)
  else .ok (s.allocate (.leaf sym s.leafWeight))

/-- The pseudocode of ND_JOIN (R155). -/
def ndJoinBody (a b : Nat) (s : State) : Except CmdError State :=
  if !s.allocated a || !s.allocated b then .error (preconditionError 2)
  else if a = b then .error (preconditionError 5)
  else if hasParent s.node a || hasParent s.node b then .error (preconditionError 6)
  else .ok (s.allocate (joinNode s.node a b))

/-- The pseudocode of TR_SET (R156). -/
def trSetBody (a : Nat) (s : State) : Except CmdError State :=
  if !s.allocated a then .error (preconditionError 2)
  else if hasParent s.node a then .error (preconditionError 6)
  else .ok { s with root := a, treeValid := true, ctValid := false }

/-- Step 1 of TB_BUILD: one leaf per pair in table order, each enqueued (R157). -/
def seedLeaves : FreqTable → List Node → List PqEntry → List Node × List PqEntry
  | [], nodes, q => (nodes, q)
  | (x, c) :: ft, nodes, q =>
    seedLeaves ft (nodes ++ [.leaf x c.toNat]) (pqInsert q ⟨c.toNat, nodes.length⟩)

/-- Step 2 of TB_BUILD: while more than one entry is queued, two are dequeued, joined, and the join enqueued (R157). Each round
shortens the queue by one, so a bound of its length is never reached (log 12). -/
def mergeQueue : Nat → List Node → List PqEntry → List Node × List PqEntry
  | 0, nodes, q => (nodes, q)
  | n + 1, nodes, q =>
    match q with
    | e :: f :: q' =>
      mergeQueue n (nodes ++ [joinNode nodes e.idx f.idx]) (pqInsert q' ⟨e.weight + f.weight, nodes.length⟩)
    | [] => (nodes, q)
    | [_] => (nodes, q)

/-- The node store and queue that steps 1 and 2 of TB_BUILD make of a table (R157, R162). -/
def buildTree (ft : FreqTable) : List Node × List PqEntry :=
  let seeded := seedLeaves ft [] []
  mergeQueue seeded.2.length seeded.1 seeded.2

/-- The pseudocode of TB_BUILD (R157): the last entry is dequeued and is the root; on a table that is not empty there is one. -/
def tbBuildBody (s : State) : Except CmdError State :=
  if s.ft.isEmpty then .error missingInputError
  else
    let built := buildTree s.ft
    match pqRemoveHead built.2 with
    | some (e, q) => .ok { s with node := built.1, pq := q, root := e.idx, treeValid := true, ctValid := false }
    | none => .error missingInputError

/-- ND_LEAF sym (R153). -/
def execNdLeaf (sym : Byte) (s : State) : Host.Outcome State Fault Refusal := finish s (ndLeafBody sym s)

/-- ND_JOIN a, b (R155). -/
def execNdJoin (a b : Nat) (s : State) : Host.Outcome State Fault Refusal := finish s (ndJoinBody a b s)

/-- TR_SET a (R156). -/
def execTrSet (a : Nat) (s : State) : Host.Outcome State Fault Refusal := finish s (trSetBody a s)

/-- TB_BUILD (R157). -/
def execTbBuild (s : State) : Host.Outcome State Fault Refusal := finish s (tbBuildBody s)

end Sys2Proof.Machine
end

