-- ==== Sys2Proof/Machine/TopLevel.lean ====
section
/-! DEFINITION. Housekeeping and composite commands: NOP, CLR, COMPRESS, DECOMPRESS (47_top_level.md R230 to R242). -/

namespace Sys2Proof.Machine

/-- The pseudocode of CLR (R231). -/
def clrBody (s : State) : Except CmdError State := .ok s.clearInstance.leaveError

/-- The bodies of the stages one after the other, each on the state the one before left; the first error ends the run (R233). -/
def runStages : List (State → Except CmdError State) → State → Except CmdError State
  | [], s => .ok s
  | f :: fs, s =>
    match f s with
    | .error e => .error e
    | .ok t => runStages fs t

/-- The pseudocode of COMPRESS (R233). -/
def compressBody (s : State) : Except CmdError State :=
  runStages [ftBuildBody, tbBuildBody, cgGenBody, bsAsmBody, bpPackBody, ccEncodeBody] s.clearInstance

/-- The pseudocode of DECOMPRESS (R235). -/
def decompressBody (s : State) : Except CmdError State :=
  runStages [ccParseBody, tbBuildBody, cgGenBody, bpUnpackBody, bdDecodeBody] s.clearInstance

/-- NOP: only the completion flags (R230). -/
def execNop (s : State) : Host.Outcome State Fault Refusal := finish s (.ok s)

/-- CLR (R231). -/
def execClr (s : State) : Host.Outcome State Fault Refusal := finish s (clrBody s)

/-- COMPRESS (R233). -/
def execCompress (s : State) : Host.Outcome State Fault Refusal := finish s (compressBody s)

/-- DECOMPRESS (R235). -/
def execDecompress (s : State) : Host.Outcome State Fault Refusal := finish s (decompressBody s)

end Sys2Proof.Machine
end

