-- ==== Sys2Proof/Machine/Dispatch.lean ====
section
/-! DEFINITION. One arm per command: the execution of an accepted, legal command (R90 steps 5 and 6). -/

namespace Sys2Proof.Machine

def exec (i : Instr) (s : State) : Host.Outcome State Fault Refusal :=
  match i with
  | .nop => Sys2Proof.Machine.execNop s
  | .clr => Sys2Proof.Machine.execClr s
  | .ftBuild => Sys2Proof.Machine.execFtBuild s
  | .ndLeaf sym => Sys2Proof.Machine.execNdLeaf sym s
  | .ndJoin a b => Sys2Proof.Machine.execNdJoin a b s
  | .trSet a => Sys2Proof.Machine.execTrSet a s
  | .pqEnq a => Sys2Proof.Machine.execPqEnq a s
  | .pqDeq => Sys2Proof.Machine.execPqDeq s
  | .pqSize => Sys2Proof.Machine.execPqSize s
  | .pqEmpty => Sys2Proof.Machine.execPqEmpty s
  | .tbBuild => Sys2Proof.Machine.execTbBuild s
  | .cgGen => Sys2Proof.Machine.execCgGen s
  | .bsAsm => Sys2Proof.Machine.execBsAsm s
  | .bpPack => Sys2Proof.Machine.execBpPack s
  | .bpUnpack => Sys2Proof.Machine.execBpUnpack s
  | .ccEncode => Sys2Proof.Machine.execCcEncode s
  | .ccParse => Sys2Proof.Machine.execCcParse s
  | .bdDecode => Sys2Proof.Machine.execBdDecode s
  | .compress => Sys2Proof.Machine.execCompress s
  | .decompress => Sys2Proof.Machine.execDecompress s

end Sys2Proof.Machine
end

