-- ==== Sys2Proof/Machine/Port.lean ====
section
/-! DEFINITION. The host port: the register map (R36, R37), the address map (R66), which accesses are accepted (R67 to R69), reads
and writes (R70), the write of CMD (R22, R90 steps 1 to 3), and accesses while a command runs (R77, R286, R287). -/

namespace Sys2Proof.Machine

/-- The 19 registers of R36, in the map's order. -/
def Reg.all : List Reg :=
  [.cmd, .status, .ctrl, .errCode, .errInfo, .arg0, .res0, .res1, .res2, .inLen] ++
  [.outLen, .ftN, .nodeN, .root, .pqSize, .bitLen, .pkLen, .pad, .hdrLen]

/-- The offset column of R36. -/
def Reg.offset : Reg → Nat
  | .cmd => 0x000
  | .status => 0x004
  | .ctrl => 0x008
  | .errCode => 0x00C
  | .errInfo => 0x010
  | .arg0 => 0x014
  | .res0 => 0x018
  | .res1 => 0x01C
  | .res2 => 0x020
  | .inLen => 0x024
  | .outLen => 0x028
  | .ftN => 0x02C
  | .nodeN => 0x030
  | .root => 0x034
  | .pqSize => 0x038
  | .bitLen => 0x03C
  | .pkLen => 0x040
  | .pad => 0x044
  | .hdrLen => 0x048

/-- The register at an offset; none at the reserved offsets (R37). -/
def regAt (o : Nat) : Option Reg := Reg.all.find? (fun r => r.offset == o)

/-- A register as the host reads it: CMD reads 0 (R22), STATUS, CTRL and ERR_CODE with their reserved bits 0 (R25, R31, R32), the
mirrors as the property they equal (R35). -/
def State.readReg (s : State) : Reg → Word
  | .cmd => 0
  | .status => s.statusWord
  | .ctrl => s.ctrlWord
  | .errCode => s.errCode.setWidth 32
  | .errInfo => s.errInfo
  | .arg0 => s.arg0
  | .res0 => s.res0
  | .res1 => s.res1
  | .res2 => s.res2
  | .inLen => s.inLen
  | .outLen => BitVec.ofNat 32 s.outLen
  | .ftN => BitVec.ofNat 32 s.ft.length
  | .nodeN => BitVec.ofNat 32 s.nodeN
  | .root => BitVec.ofNat 32 (if s.treeValid then s.root else 0)
  | .pqSize => BitVec.ofNat 32 s.pq.length
  | .bitLen => BitVec.ofNat 32 s.bitbuf.length
  | .pkLen => BitVec.ofNat 32 s.pkLen
  | .pad => BitVec.ofNat 32 s.pad
  | .hdrLen => BitVec.ofNat 32 s.hdrLen

/-- A write of CMD (R90 steps 1 to 3): dropped with OVR set while a command runs (R286), dropped with no change at all while ERR
is 1 unless the opcode is CLR's (R28), else accepted. -/
def State.writeCmd (s : State) (w : Word) : State :=
  if s.busy then { s with ovr := true }
  else if s.err && fieldOp w != Opcode.clr.code then s
  else s.accept w

/-- A write of a register by the host: RW registers store, CMD issues, read-only registers ignore it (R36, R70). -/
def State.writeReg (s : State) (r : Reg) (v : Word) : State :=
  match r with
  | .cmd => s.writeCmd v
  | .ctrl => s.writeCtrl v
  | .arg0 => { s with arg0 := v }
  | .inLen => { s with inLen := v }
  | .status | .errCode | .errInfo | .res0 | .res1 | .res2 | .outLen | .ftN | .nodeN | .root | .pqSize | .bitLen | .pkLen
  | .pad | .hdrLen => s

/-- What a host address names (R60, R66). -/
inductive Target where
  | reg (offset : Nat)
  | ibuf (offset : Nat)
  | obuf (offset : Nat)
  | outside
  deriving DecidableEq, Repr

/-- An address lies in the window of `size` bytes from `base`. -/
def inWindow (base size addr : Nat) : Bool := decide (base ≤ addr) && decide (addr < base + size)

/-- The address map R66. -/
def addressTarget (c : Config) (addr : Nat) : Target :=
  if inWindow c.regBase Config.regBytes addr then .reg (addr - c.regBase)
  else if inWindow c.ibufBase c.ibufSize addr then .ibuf (addr - c.ibufBase)
  else if inWindow c.obufBase c.obufSize addr then .obuf (addr - c.obufBase)
  else .outside

/-- A register access must be 32 bits wide and its address a multiple of 4 (R67). -/
def regAccessOk (addr bytes : Nat) : Bool := bytes == 4 && addr % 4 == 0

/-- The port answers an access. -/
def State.answer (s : State) (r : PortResp) : State := { s with resp := some r }

/-- A free value is drawn for data the spec leaves unspecified (log 9). -/
def State.draw (s : State) : State := { s with draws := s.draws + 1 }

/-- A refused read: a bus error, its data unspecified, no state of the block changed (R69, U11). -/
def State.refuseRead (s : State) : State := s.draw.answer (.busError (some (Config.freeWord s.draws)))

/-- A refused write: a bus error, no state of the block changed (R69). -/
def State.refuseWrite (s : State) : State := s.answer (.busError none)

/-- A register read whose value is unspecified (R287). -/
def State.answerFreeWord (s : State) : State := s.draw.answer (.word (Config.freeWord s.draws))

/-- A byte read whose value is unspecified (R49, R287, U9). -/
def State.answerFreeByte (s : State) : State := s.draw.answer (.byte ((Config.freeWord s.draws).setWidth 8))

/-- While BUSY = 1 the host may access STATUS and CTRL (R77, R287). -/
def Reg.accessibleWhileBusy : Reg → Bool
  | .status => true
  | .ctrl => true
  | .cmd | .errCode | .errInfo | .arg0 | .res0 | .res1 | .res2 | .inLen | .outLen | .ftN | .nodeN | .root | .pqSize | .bitLen
  | .pkLen | .pad | .hdrLen => false

/-- An accepted register read at an offset: while a command runs, anything but STATUS and CTRL reads an unspecified value (R287);
reserved offsets read 0 (R37). DESIGN CHOICE (log 25): TREE_VALID, CT_VALID, PQ_EMPTY and ERR in a STATUS read while a command runs
are those before the command, because its whole effect comes with its completion; the spec defines no intermediate state (R10). -/
def State.readOffset (s : State) (o : Nat) : State :=
  match regAt o with
  | some r =>
    if s.busy && !r.accessibleWhileBusy then s.answerFreeWord
    else s.answer (.word (s.readReg r))
  | none => if s.busy then s.answerFreeWord else s.answer (.word 0)

/-- A host read (R67 to R71). OBUF at and beyond OUT_LEN reads an unspecified value (R49, U9), as does a window while a command
runs (R287). -/
def State.hostRead (s : State) (addr : Word) (bytes : Nat) : State :=
  match addressTarget s.cfg addr.toNat with
  | .reg o => if regAccessOk addr.toNat bytes then s.readOffset o else s.refuseRead
  | .ibuf i =>
    if bytes ≠ 1 then s.refuseRead
    else if s.busy then s.answerFreeByte
    else s.answer (.byte (s.byteAt .ibuf i))
  | .obuf i =>
    if bytes ≠ 1 then s.refuseRead
    else if s.busy || decide (s.outLen ≤ i) then s.answerFreeByte
    else s.answer (.byte (s.byteAt .obuf i))
  | .outside => s.refuseRead

/-- The registers whose write while a command runs races with the command (R287). -/
def Reg.racesWhileBusy : Reg → Bool
  | .arg0 => true
  | .inLen => true
  | .cmd | .status | .ctrl | .errCode | .errInfo | .res0 | .res1 | .res2 | .outLen | .ftN | .nodeN | .root | .pqSize | .bitLen
  | .pkLen | .pad | .hdrLen => false

/-- An accepted register write at an offset. While a command runs: CMD is dropped with OVR (R286), CTRL is written (R287), IN_LEN
and ARG0 are refused (R287, U10), read-only registers and reserved offsets ignore the write (R37, R70; log 4). -/
def State.writeOffset (s : State) (o : Nat) (v : Word) : Host.Outcome State Fault Refusal :=
  match regAt o with
  | some r =>
    if s.busy && r.racesWhileBusy then .refused .hostWriteWhileBusy
    else .next ((s.writeReg r v).answer .ack)
  | none => .next (s.answer .ack)

/-- A host write (R67 to R70): a window byte takes bits 7..0 of the data; OBUF refuses every write (R68). -/
def State.hostWrite (s : State) (addr : Word) (bytes : Nat) (v : Word) : Host.Outcome State Fault Refusal :=
  match addressTarget s.cfg addr.toNat with
  | .reg o => if regAccessOk addr.toNat bytes then s.writeOffset o v else .next s.refuseWrite
  | .ibuf i =>
    if bytes ≠ 1 then .next s.refuseWrite
    else if s.busy then .refused .hostWriteWhileBusy
    else .next ({ s with ibuf := Memory.write s.ibuf i (v.setWidth 8) }.answer .ack)
  | .obuf _ => .next s.refuseWrite
  | .outside => .next s.refuseWrite

/-- One access of the host (R75). -/
def hostAccess (a : Access) (s : State) : Host.Outcome State Fault Refusal :=
  match a with
  | .read addr bytes => .next (s.hostRead addr bytes)
  | .write addr bytes v => s.hostWrite addr bytes v

end Sys2Proof.Machine
end

