-- ==== Sys2Proof/Machine/Sequencer.lean ====
section
/-! DEFINITION. The sequencer (R11): the accepted word is decoded and the command runs to completion (R90 steps 4 to 6); without
one the block idles (R273, R281). And a command word placed for it. -/

namespace Sys2Proof.Machine

/-- An accepted word runs: an illegal word raises IllegalCommandError with the word as ERR_INFO (R90 step 4, R95), a legal one is
executed (R90 steps 5 and 6). -/
def runWord (w : Word) (s : State) : Host.Outcome State Fault Refusal :=
  match decode w with
  | .error _ => finish s (.error (illegalCommandError w))
  | .ok i => exec i s

/-- The sequencer's move: the running command, to completion (R10); an idle block keeps all its state (R273, R281). -/
def sequencerStep (s : State) : Host.Outcome State Fault Refusal :=
  match s.running with
  | some w => runWord w s
  | none => .next s

/-- The command word whose bits from 0 up are those of `w`, the bits at and above `nbits` being 0 (R91). -/
def tableWord (nbits w : Nat) : Word := BitVec.ofNat 32 (w % 2 ^ nbits)

/-- The state in which a CMD write of the word has just been accepted (R90 step 3) and the host waits (R99), with what the port
receives afterwards unchanged. -/
def placeCommand (s : State) (w : Word) : State := { s.accept w with port := .wait :: s.port }

end Sys2Proof.Machine
end

