-- ==== Sys2Proof/Machine/Step.lean ====
section
/-! DEFINITION. One step of the machine: the next event of the port reaches the block, in the order the port receives them (R75);
when nothing more comes, the sequencer moves. -/

namespace Sys2Proof.Machine

/-- One step. An access is answered; on `wait`, and when nothing is left at the port, the sequencer moves; reset resets. -/
def step (s : State) : Host.Outcome State Fault Refusal :=
  match s.port with
  | [] => sequencerStep s
  | .wait :: rest => sequencerStep { s with port := rest }
  | .access a :: rest => hostAccess a { s with port := rest }
  | .reset :: rest => .next (State.resetEvent { s with port := rest })

/-- The state whose next step runs the command word of the row: this block fetches nothing (R23, R79), so the word stands where
an accepted CMD write puts it (log 1). -/
def State.withFetchWord (s : State) (nbits w : Nat) : State := placeCommand s (tableWord nbits w)

end Sys2Proof.Machine
end

