-- ==== Sys2Proof/Safety.lean ====
section
/-! DEFINITION. The terms claims are stated in: the invariants of the state that the spec gives (R29, R39, R42, R43, R45, R256,
R258), the state after an error written out from R256 and R51, the path of R111, the tree walk of R225, and the host program of
R158. -/

namespace Sys2Proof.Machine

/-! ## Invariants of the structures -/

/-- R39: the symbols are pairwise distinct and every count is at least 1. -/
abbrev tableWf (ft : FreqTable) : Prop := (ft.map Prod.fst).Nodup ∧ 0#32 ∉ ft.map Prod.snd

/-- The symbol of a leaf. -/
def Node.symbol? : Node → Option Byte
  | .leaf x _ => some x
  | .internal _ _ _ => none

/-- R42 for the node of index `i`: a leaf's weight is 1 to `2^32 - 1`; an internal node has two different earlier children and
the sum of their weights. -/
def Node.okAt (nodes : List Node) (i : Nat) : Node → Bool
  | .leaf _ w => decide (1 ≤ w) && decide (w < 2 ^ 32)
  | .internal w l r => l != r && decide (l < i) && decide (r < i) && w == weightAt nodes l + weightAt nodes r

/-- R42: every node is as R42 says, no node has two parents, and no two leaves hold the same symbol. -/
abbrev storeWf (nodes : List Node) : Prop :=
  (∀ i, i < nodes.length → (nodes[i]?.all (Node.okAt nodes i)) = true) ∧
  (∀ i, i < nodes.length → nodes.countP (Node.isParentOf i) ≤ 1) ∧
  (nodes.filterMap Node.symbol?).Nodup

/-- Non-decreasing weights, the form of the queue (R43). -/
abbrev queueSorted (q : List PqEntry) : Prop := q.Pairwise (fun x y => x.weight ≤ y.weight)

/-- R43: at most PQ_CAP entries, sorted, each with the weight of an allocated node. -/
abbrev queueWf (nodes : List Node) (q : List PqEntry) : Prop :=
  q.length ≤ Config.pqCap ∧ queueSorted q ∧ ∀ e ∈ q, e.idx < nodes.length ∧ weightAt nodes e.idx = e.weight

/-- The codes present in a code table. -/
def codesOf (ct : CodeTable) : List Bits := ct.toList.filterMap id

/-- R173, R174: every code is non-empty and no code is a prefix of another. -/
abbrev codesWf (ct : CodeTable) : Prop :=
  (∀ c ∈ codesOf ct, c ≠ []) ∧ (codesOf ct).Pairwise (fun c d => ¬ c <+: d ∧ ¬ d <+: c)

/-- The invariants of FT, NODE, PQ and the active tree (R39, R42, R43, R44). -/
abbrev State.structuresWf (s : State) : Prop :=
  tableWf s.ft ∧ storeWf s.node ∧ queueWf s.node s.pq ∧ (s.treeValid = true → s.root < s.node.length)

/-- R29: a valid code table is the code table of the active tree, which then exists. -/
abbrev State.codeTableCurrent (s : State) : Prop :=
  s.structuresWf ∧ (s.ctValid = true → s.treeValid = true ∧ s.ct = genCodes s.node s.root)

/-- A byte memory of `size` bytes is in canonical form, lists no offset outside it, and knows its first `n` bytes. -/
abbrev memoryWf (m : Memory) (size n : Nat) : Prop :=
  m.wf ∧ (∀ c ∈ m, c.1 < size) ∧ ∀ a, a < n → (m.read a).isSome = true

/-- The lengths and buffers (R33 to R35, R39, R46, R48, R49): ranges of the mirrors, capacities, and the three memories. -/
abbrev State.buffersWf (s : State) : Prop :=
  tableWf s.ft ∧ s.bitbuf.length ≤ s.cfg.bitCap ∧ s.pkLen ≤ s.cfg.pbufSize ∧ s.pad ≤ 7 ∧ s.outLen ≤ s.cfg.obufSize ∧
  s.hdrLen < 2 ^ 32 ∧ memoryWf s.ibuf s.cfg.ibufSize 0 ∧ memoryWf s.obuf s.cfg.obufSize s.outLen ∧
  memoryWf s.pbuf s.cfg.pbufSize s.pkLen

/-- The opcode of CLR is that of the running word, if there is one. -/
def State.runsOnlyClr (s : State) : Bool := s.running.all (fun w => fieldOp w == 0x01#8)

/-- The error state (R27, R28, R32, R256, R258): while ERR is 1 the error registers hold a kind, DONE is 0, the instance is empty,
and nothing but a word with CLR's opcode runs; while ERR is 0 they are 0; DONE is 0 while a command runs. -/
abbrev State.errorStateWf (s : State) : Prop :=
  (s.err = true → s.done = false ∧ 1 ≤ s.errCode.toNat ∧ s.errCode.toNat ≤ 8 ∧ s.clearInstance = s ∧ s.runsOnlyClr = true) ∧
  (s.err = false → s.errCode = 0 ∧ s.errInfo = 0) ∧ (s.busy = true → s.done = false)

/-! ## The state after an error -/

/-- R256 with R51 written out: every structure and result register of the instance empty or 0, ERR set, DONE and BUSY 0, the error
registers written, everything else kept. -/
def afterError (s : State) (code : Byte) (info : Word) : State :=
  { s with
    ft := [], node := [], pq := [], root := 0, treeValid := false, ctValid := false, ct := Vector.replicate 256 none
    bitbuf := [], pkLen := 0, pad := 0, hdrLen := 0, outLen := 0, res0 := 0, res1 := 0, res2 := 0
    err := true, done := false, running := none, errCode := code, errInfo := info }

/-! ## Codes -/

/-- The node a bit string leads to from node `i`: 0 a left step, 1 a right step (R111). -/
def followPath (nodes : List Node) : Nat → Bits → Option Node
  | i, [] => nodes[i]?
  | i, b :: bs =>
    match nodes[i]? with
    | some (.internal _ l r) => followPath nodes (if b then r else l) bs
    | some (.leaf _ _) => none
    | none => none

/-- The code of a symbol, empty where it has none. -/
def codeOf (ct : CodeTable) (x : Byte) : Bits := (ct.get x).getD []

/-- Every symbol of the text has a code. -/
abbrev allCoded (ct : CodeTable) (xs : List Byte) : Prop := ∀ x ∈ xs, (ct.get x).isSome = true

/-- The concatenation of the codes of a text, in order (R110). -/
def encodeText (ct : CodeTable) (xs : List Byte) : Bits := xs.flatMap (codeOf ct)

/-- The code table that a frequency table determines (R232): the codes of the tree TB_BUILD makes of it, whose root is node
`2 * FT_N - 2` (R152). -/
def codeTableOf (ft : FreqTable) : CodeTable := genCodes (buildTree ft).1 (2 * ft.length - 2)

/-- The tree walk of R225 over the bits still to read: `i` the position of the next bit, `n` the node reached, `out` the symbols so
far. A root that is a leaf emits its symbol on 0 and fails on 1. -/
def treeWalk (nodes : List Node) (root cap : Nat) : Bits → Nat → Nat → List Byte → Except CmdError (List Byte)
  | [], i, n, out => if n = root then .ok out else .error (unknownSymbolError i)
  | b :: bits, i, n, out =>
    match nodes[n]? with
    | some (.leaf x _) =>
      if b then .error (unknownSymbolError i)
      else if out.length = cap then .error (capacityError 4)
      else treeWalk nodes root cap bits (i + 1) root (out ++ [x])
    | some (.internal _ l r) =>
      let m := if b then r else l
      match nodes[m]? with
      | some (.leaf x _) =>
        if out.length = cap then .error (capacityError 4)
        else treeWalk nodes root cap bits (i + 1) root (out ++ [x])
      | some (.internal _ _ _) => treeWalk nodes root cap bits (i + 1) m out
      | none => .error (unknownSymbolError i)
    | none => .error (unknownSymbolError i)

/-! ## The host program of R158 -/

/-- A step of a host program after which the next one runs only from a next state. -/
def andThen (o : Host.Outcome State Fault Refusal) (f : State → Host.Outcome State Fault Refusal) :
    Host.Outcome State Fault Refusal :=
  match o with
  | .next t => f t
  | .fault r => .fault r
  | .refused r => .refused r

/-- For each pair in order: `ND_LEAF s, c` (ARG0 written first), then PQ_ENQ of the index it returned (R158). -/
def seedByPrimitives : FreqTable → State → Host.Outcome State Fault Refusal
  | [], s => .next s
  | (x, c) :: ft, s =>
    andThen (exec (.ndLeaf x) { s with arg0 := c }) fun t =>
    andThen (exec (.pqEnq t.res0.toNat) t) fun u => seedByPrimitives ft u

/-- `n` times: PQ_DEQ giving `a`, PQ_DEQ giving `b`, `ND_JOIN a, b`, PQ_ENQ of the index it returned (R158). -/
def mergeByPrimitives : Nat → State → Host.Outcome State Fault Refusal
  | 0, s => .next s
  | n + 1, s =>
    andThen (exec .pqDeq s) fun ta =>
    andThen (exec .pqDeq ta) fun tb =>
    andThen (exec (.ndJoin ta.res0.toNat tb.res0.toNat) tb) fun tj =>
    andThen (exec (.pqEnq tj.res0.toNat) tj) fun u => mergeByPrimitives n u

/-- The host program of R158 for the table `ft`: the seeding, one merge less than pairs, then PQ_DEQ giving `r` and `TR_SET r`. -/
def buildByPrimitives (ft : FreqTable) (s : State) : Host.Outcome State Fault Refusal :=
  andThen (seedByPrimitives ft s) fun t =>
  andThen (mergeByPrimitives (ft.length - 1) t) fun u =>
  andThen (exec .pqDeq u) fun v => exec (.trSet v.res0.toNat) v

/-! ## Accesses of the host -/

/-- The host address of the register at an offset (R66). -/
def regAddr (c : Config) (o : Nat) : Word := BitVec.ofNat 32 (c.regBase + o)

/-- The host address of `IBUF[i]` (R66). -/
def ibufAddr (c : Config) (i : Nat) : Word := BitVec.ofNat 32 (c.ibufBase + i)

/-- The host address of `OBUF[i]` (R66). -/
def obufAddr (c : Config) (i : Nat) : Word := BitVec.ofNat 32 (c.obufBase + i)

/-- The address lies in the window of `size` bytes from `base`. -/
abbrev inside (base size : Nat) (addr : Word) : Prop := base ≤ addr.toNat ∧ addr.toNat < base + size

/-- An address in none of the three regions (R69). -/
abbrev outsideAll (c : Config) (addr : Word) : Prop :=
  ¬ inside c.regBase 0x1000 addr ∧ ¬ inside c.ibufBase c.ibufSize addr ∧ ¬ inside c.obufBase c.obufSize addr

/-- The accesses R67 to R69 refuse: a register access that is not an aligned 32-bit one, a window access that is not 8 bits wide,
a write to OBUF, and an access to an address in no region. -/
def accessRefused (c : Config) : Access → Prop
  | .read addr bytes =>
    (inside c.regBase 0x1000 addr ∧ (bytes ≠ 4 ∨ addr.toNat % 4 ≠ 0)) ∨ (inside c.ibufBase c.ibufSize addr ∧ bytes ≠ 1) ∨
      (inside c.obufBase c.obufSize addr ∧ bytes ≠ 1) ∨ outsideAll c addr
  | .write addr bytes _ =>
    (inside c.regBase 0x1000 addr ∧ (bytes ≠ 4 ∨ addr.toNat % 4 ≠ 0)) ∨ (inside c.ibufBase c.ibufSize addr ∧ bytes ≠ 1) ∨
      inside c.obufBase c.obufSize addr ∨ outsideAll c addr

/-- The registers the host can only read, and their offsets: every register of R36 but CMD, CTRL, ARG0 and IN_LEN. -/
def readOnlyOffsets : List Nat :=
  [0x004, 0x00C, 0x010, 0x018, 0x01C, 0x020, 0x028, 0x02C] ++ [0x030, 0x034, 0x038, 0x03C, 0x040, 0x044, 0x048]

/-! ## Which commands write what -/

/-- The commands whose rules write a result register (R21). -/
def writesResult : Instr → Bool
  | .ndLeaf _ | .ndJoin _ _ | .pqEnq _ | .pqDeq | .pqSize | .pqEmpty => true
  | .nop | .clr | .ftBuild | .trSet _ | .tbBuild | .cgGen | .bsAsm | .bpPack | .bpUnpack | .ccEncode | .ccParse | .bdDecode
  | .compress | .decompress => false

/-- The commands that set the result registers to 0 (R21). -/
def clearsResults : Instr → Bool
  | .clr | .compress | .decompress => true
  | .nop | .ftBuild | .ndLeaf _ | .ndJoin _ _ | .trSet _ | .pqEnq _ | .pqDeq | .pqSize | .pqEmpty | .tbBuild | .cgGen | .bsAsm
  | .bpPack | .bpUnpack | .ccEncode | .ccParse | .bdDecode => false

/-- The commands that store into PBUF, at offsets from 0 up to PK_LEN (R46). -/
def storesPbuf : Instr → Bool
  | .bpPack | .ccParse | .compress | .decompress => true
  | .nop | .clr | .ftBuild | .ndLeaf _ | .ndJoin _ _ | .trSet _ | .pqEnq _ | .pqDeq | .pqSize | .pqEmpty | .tbBuild | .cgGen
  | .bsAsm | .bpUnpack | .ccEncode | .bdDecode => false

/-- The commands that store into OBUF, at offsets from 0 up to OUT_LEN (R49). -/
def storesObuf : Instr → Bool
  | .ccEncode | .bdDecode | .compress | .decompress => true
  | .nop | .clr | .ftBuild | .ndLeaf _ | .ndJoin _ _ | .trSet _ | .pqEnq _ | .pqDeq | .pqSize | .pqEmpty | .tbBuild | .cgGen
  | .bsAsm | .bpPack | .bpUnpack | .ccParse => false

/-- TREE_VALID after a command that succeeded, from its value before (R29). -/
def treeValidAfter : Instr → Bool → Bool
  | .trSet _, _ => true
  | .tbBuild, _ => true
  | .compress, _ => true
  | .decompress, _ => true
  | .clr, _ => false
  | .ftBuild, _ => false
  | .ccParse, _ => false
  | .nop, v | .ndLeaf _, v | .ndJoin _ _, v | .pqEnq _, v | .pqDeq, v | .pqSize, v | .pqEmpty, v | .cgGen, v | .bsAsm, v
  | .bpPack, v | .bpUnpack, v | .ccEncode, v | .bdDecode, v => v

/-- CT_VALID after a command that succeeded, from its value before (R29). -/
def ctValidAfter : Instr → Bool → Bool
  | .cgGen, _ => true
  | .compress, _ => true
  | .decompress, _ => true
  | .clr, _ => false
  | .ftBuild, _ => false
  | .ccParse, _ => false
  | .trSet _, _ => false
  | .tbBuild, _ => false
  | .nop, v | .ndLeaf _, v | .ndJoin _ _, v | .pqEnq _, v | .pqDeq, v | .pqSize, v | .pqEmpty, v | .bsAsm, v | .bpPack, v
  | .bpUnpack, v | .ccEncode, v | .bdDecode, v => v

/-! ## Nodes and containers -/

/-- `has_parent(i)` (R41). -/
abbrev HasParent (nodes : List Node) (i : Nat) : Prop := ∃ w l r, Node.internal w l r ∈ nodes ∧ (l = i ∨ r = i)

/-- `has_leaf(x)` (R41). -/
abbrev HasLeaf (nodes : List Node) (x : Byte) : Prop := ∃ w, Node.leaf x w ∈ nodes

/-- The five bytes of a record (R108). -/
def recordBytes (p : Byte × Word) : List Byte :=
  [p.1, p.2.extractLsb' 24 8, p.2.extractLsb' 16 8, p.2.extractLsb' 8 8, p.2.extractLsb' 0 8]

/-- A byte is one of the digits '0' to '9' (R104). -/
abbrev isDigit (b : Byte) : Prop := 0x30 ≤ b.toNat ∧ b.toNat ≤ 0x39

/-- The number that a digit text writes: `sum over i of (bs[i] - 0x30) * 10^(len(bs)-1-i)` (R105). -/
def textValue (bs : List Byte) : Nat :=
  ((List.range bs.length).map (fun i => ((bs[i]?.getD 0).toNat - 0x30) * 10 ^ (bs.length - 1 - i))).sum

/-- The bytes are a container that CC_PARSE takes (R100, R101, R103, R105, R106, R109, R208), with length field `digits`, padding
count `pad`, table `ft` and payload `payload`. -/
abbrev isContainer (bs digits : List Byte) (pad : Nat) (ft : FreqTable) (payload : List Byte) : Prop :=
  bs = digits ++ [0x0A#8, BitVec.ofNat 8 (0x30 + pad), 0x0A#8] ++ ft.flatMap recordBytes ++ payload ∧
  digits ≠ [] ∧ (∀ b ∈ digits, isDigit b) ∧ textValue digits = 5 * ft.length ∧ tableWf ft ∧ pad ≤ 7 ∧
  (payload = [] → pad = 0)

end Sys2Proof.Machine
end

