-- ==== Sys2Proof/Certificates/Slice0/Obligations.lean ====
section
/-! DEFINITION. The statements for the provers, from the numbered rules of spec/. `done := true, running := none` in a next state
is the completion of R90 step 6; `afterError s code info` is the error entry of R256. -/

open Sys2Proof Sys2Proof.Machine

/-! ## Command words -/

/-- R92, R93, vectors of 95 section 2.1: words written out bit by bit decode to the commands they stand for. -/
def Obligations.ListedWordsDecode : Prop :=
  (decode 0x00000000#32 = .ok .nop ∧ decode 0x00000001#32 = .ok .clr ∧ decode 0x00000010#32 = .ok .ftBuild ∧
    decode 0x00006120#32 = .ok (.ndLeaf 0x61#8) ∧ decode 0x00020021#32 = .ok (.ndJoin 0 1) ∧
    decode 0x03FFFF21#32 = .ok (.ndJoin 511 511) ∧ decode 0x00000222#32 = .ok (.trSet 2) ∧
    decode 0x00010028#32 = .ok (.pqEnq 256) ∧ decode 0x00000029#32 = .ok .pqDeq ∧ decode 0x0000002A#32 = .ok .pqSize) ∧
  (decode 0x0000002B#32 = .ok .pqEmpty ∧ decode 0x00000030#32 = .ok .tbBuild ∧ decode 0x00000040#32 = .ok .cgGen ∧
    decode 0x00000050#32 = .ok .bsAsm ∧ decode 0x00000051#32 = .ok .bpPack ∧ decode 0x00000052#32 = .ok .bpUnpack ∧
    decode 0x00000060#32 = .ok .ccEncode ∧ decode 0x00000061#32 = .ok .ccParse ∧ decode 0x00000070#32 = .ok .bdDecode ∧
    decode 0x00000080#32 = .ok .compress ∧ decode 0x00000081#32 = .ok .decompress) ∧
  (∀ w ∈ [0x00000011#32, 0x000000FF#32, 0x00000110#32, 0x00010020#32, 0x00020028#32, 0x04000000#32, 0x80000021#32,
    0x00000101#32], (decode w).toOption = none)

/-- R91, R92, R93, R96: decoding the encoded word of a well-formed instruction gives it back, every operand at every value. -/
def Obligations.DecodeOfEncode : Prop := ∀ i : Instr, i.wf = true → decode (encode i) = .ok i

/-- R91 to R97: a word that decodes is the encoded word of a well-formed instruction, so each legal word has one meaning. -/
def Obligations.EncodeOfDecode : Prop := ∀ (w : Word) (i : Instr), decode w = .ok i → i.wf = true ∧ encode i = w

/-- R94: a word is a legal command exactly when, masked by the format of one of the 20 rows, it is that row's match value. -/
def Obligations.LegalWordsAreTheTable : Prop :=
  ∀ w : Word, (∃ i, decode w = .ok i) ↔
    ((∃ m ∈ [0x00#32, 0x01#32, 0x10#32, 0x29#32, 0x2A#32, 0x2B#32, 0x30#32, 0x40#32, 0x50#32] ++
        [0x51#32, 0x52#32, 0x60#32, 0x61#32, 0x70#32, 0x80#32, 0x81#32], w &&& 0xFFFFFFFF#32 = m) ∨
      w &&& 0xFFFF00FF#32 = 0x20#32 ∨ w &&& 0xFFFE00FF#32 = 0x22#32 ∨ w &&& 0xFFFE00FF#32 = 0x28#32 ∨
      w &&& 0xFC0000FF#32 = 0x21#32)

/-- R90 step 4, R95, R256: an accepted word that is no legal command raises IllegalCommandError with the word as ERR_INFO. -/
def Obligations.IllegalWordRaisesError : Prop :=
  ∀ (s : State) (w : Word) (rest : List PortEvent), s.running = some w → (∀ i, decode w ≠ .ok i) →
    (s.port = [] → step s = .next (afterError s 5 w)) ∧
    (s.port = .wait :: rest → step s = .next (afterError { s with port := rest } 5 w))

/-- R90 step 5, R23: an accepted word that decodes runs as exactly its instruction, once the host waits or has nothing more to
send; and the word that withFetchWord places is run so by the very next step. The port events and the split of a command into acceptance
and execution are the model's (logs 1 and 3). -/
def Obligations.StepRunsDecodedInstruction : Prop :=
  (∀ (s : State) (w : Word) (i : Instr) (rest : List PortEvent), s.running = some w → decode w = .ok i →
    (s.port = [] → step s = exec i s) ∧ (s.port = .wait :: rest → step s = exec i { s with port := rest })) ∧
  (∀ (s : State) (w : Word) (i : Instr), decode w = .ok i →
    step (s.withFetchWord 32 w.toNat) = exec i { s with running := some w, done := false })

/-! ## The host port -/

/-- R90 steps 1 to 3, R22, R28, R286: a CMD write is dropped with OVR while a command runs, dropped with no change while ERR is 1
unless its opcode is CLR's, and else accepted with DONE 0 and BUSY 1. That a state with BUSY 1 is seen at all is the model's choice
(log 3). -/
def Obligations.CommandWriteIssuesOrDrops : Prop :=
  ∀ (s : State) (w : Word) (rest : List PortEvent), s.cfg.ok →
    s.port = .access (.write (regAddr s.cfg 0x000) 4 w) :: rest →
    (s.busy = true → step s = .next { s with port := rest, resp := some .ack, ovr := true }) ∧
    (s.busy = false → s.err = true → w.extractLsb' 0 8 ≠ 0x01#8 →
      step s = .next { s with port := rest, resp := some .ack }) ∧
    (s.busy = false → (s.err = false ∨ w.extractLsb' 0 8 = 0x01#8) →
      step s = .next { s with port := rest, resp := some .ack, running := some w, done := false })

/-- R36, R22, R25, R31, R32, R35, R67: each register of the map answers its value to an aligned 32-bit read while no command
runs. -/
def Obligations.RegisterMapReads : Prop :=
  ∀ (s : State) (rest : List PortEvent) (o : Nat) (v : Word), s.cfg.ok → s.busy = false →
    (o, v) ∈ ([(0x000, 0#32), (0x004, s.statusWord), (0x008, BitVec.ofNat 32 s.ie.toNat), (0x00C, s.errCode.setWidth 32),
      (0x010, s.errInfo), (0x014, s.arg0), (0x018, s.res0), (0x01C, s.res1), (0x020, s.res2), (0x024, s.inLen)] ++
      [(0x028, BitVec.ofNat 32 s.outLen), (0x02C, BitVec.ofNat 32 s.ft.length), (0x030, BitVec.ofNat 32 s.node.length),
      (0x034, if s.treeValid = true then BitVec.ofNat 32 s.root else 0#32), (0x038, BitVec.ofNat 32 s.pq.length),
      (0x03C, BitVec.ofNat 32 s.bitbuf.length), (0x040, BitVec.ofNat 32 s.pkLen), (0x044, BitVec.ofNat 32 s.pad),
      (0x048, BitVec.ofNat 32 s.hdrLen)] : List (Nat × Word)) →
    s.port = .access (.read (regAddr s.cfg o) 4) :: rest → step s = .next { s with port := rest, resp := some (.word v) }

/-- R25: the fields of STATUS at their positions, bits 31 to 7 read as 0, and the reset value. That the word shows the flags before
the command while one runs is the model's choice (log 25). -/
def Obligations.StatusFieldLayout : Prop :=
  (∀ s : State,
    (s.statusWord.getLsbD 0 = s.running.isSome ∧ s.statusWord.getLsbD 1 = s.done ∧ s.statusWord.getLsbD 2 = s.err ∧
      s.statusWord.getLsbD 3 = s.treeValid ∧ s.statusWord.getLsbD 4 = s.ctValid ∧
      s.statusWord.getLsbD 5 = decide (s.pq.length = 0) ∧ s.statusWord.getLsbD 6 = s.ovr) ∧
    ∀ k, 7 ≤ k → s.statusWord.getLsbD k = false) ∧
  State.reset.statusWord = 0x00000020#32

/-- R31: CTRL stores bit 0 and reads its other bits as 0; no command reads or writes it; its reset value is 0. -/
def Obligations.CtrlHoldsOnlyInterruptEnable : Prop :=
  (∀ (s : State) (v : Word) (rest : List PortEvent), s.cfg.ok →
    s.port = .access (.write (regAddr s.cfg 0x008) 4 v) :: .access (.read (regAddr s.cfg 0x008) 4) :: rest →
    ∃ t, step s = .next t ∧
      t = { s with
        port := .access (.read (regAddr s.cfg 0x008) 4) :: rest, resp := some .ack, ie := v.getLsbD 0 } ∧
      step t = .next { t with port := rest, resp := some (.word (v &&& 1#32)) }) ∧
  (∀ (i : Instr) (s t : State) (b : Bool), exec i s = .next t → t.ie = s.ie ∧
    exec i { s with ie := b } = .next { t with ie := b }) ∧
  State.reset.ie = false

/-- R21, R33, R36, R37, R70: while no command runs, the reserved offsets read 0, a write to them or to a read-only register changes
nothing, and a write of ARG0 or of IN_LEN stores its 32 bits there and changes nothing else. -/
def Obligations.ReservedAndReadOnlyRegisters : Prop :=
  (∀ (s : State) (rest : List PortEvent) (o : Nat) (v : Word), s.cfg.ok → s.busy = false → o < 0x1000 → o % 4 = 0 →
    (0x04C ≤ o → s.port = .access (.read (regAddr s.cfg o) 4) :: rest →
      step s = .next { s with port := rest, resp := some (.word 0#32) }) ∧
    ((0x04C ≤ o ∨ o ∈ readOnlyOffsets) → s.port = .access (.write (regAddr s.cfg o) 4 v) :: rest →
      step s = .next { s with port := rest, resp := some .ack })) ∧
  ∀ (s : State) (rest : List PortEvent) (v : Word), s.cfg.ok → s.busy = false →
    (s.port = .access (.write (regAddr s.cfg 0x014) 4 v) :: rest →
      step s = .next { s with port := rest, resp := some .ack, arg0 := v }) ∧
    (s.port = .access (.write (regAddr s.cfg 0x024) 4 v) :: rest →
      step s = .next { s with port := rest, resp := some .ack, inLen := v })

/-- R67, R68, R69, R259: a refused access, and one to an address in no region, is answered with a bus error and changes no state of
the block; the data of a refused read is a free value, so nothing is said of it (the count of free values drawn is the model's,
log 9). -/
def Obligations.RefusedAccessChangesNothing : Prop :=
  ∀ (s : State) (a : Access) (rest : List PortEvent), s.cfg.ok → accessRefused s.cfg a → s.port = .access a :: rest →
    ∃ d n, step s = .next { s with port := rest, resp := some (.busError d), draws := n }

/-- R70: no host read has a side effect: beyond the port's own answer and the model's count of free values (log 9) nothing changes. -/
def Obligations.HostReadHasNoSideEffect : Prop :=
  ∀ (s : State) (addr : Word) (bytes : Nat) (rest : List PortEvent), s.port = .access (.read addr bytes) :: rest →
    ∃ r n, step s = .next { s with port := rest, resp := some r, draws := n }

/-- R48, R49, R66, R68, R70: while no command runs, a byte written to the IBUF window is the byte read there, every other byte of
IBUF and everything else stays; IBUF and the valid bytes of OBUF answer their bytes. -/
def Obligations.BufferWindowAccesses : Prop :=
  ∀ (s : State) (rest : List PortEvent) (i : Nat), s.cfg.ok → s.busy = false →
    (∀ v : Word, i < s.cfg.ibufSize → s.port = .access (.write (ibufAddr s.cfg i) 1 v) :: rest →
      ∃ t, step s = .next t ∧ t = { s with port := rest, resp := some .ack, ibuf := t.ibuf } ∧
        t.byteAt .ibuf i = v.extractLsb' 0 8 ∧ ∀ a, a ≠ i → t.byteAt .ibuf a = s.byteAt .ibuf a) ∧
    (i < s.cfg.ibufSize → s.port = .access (.read (ibufAddr s.cfg i) 1) :: rest →
      step s = .next { s with port := rest, resp := some (.byte (s.byteAt .ibuf i)) }) ∧
    (i < s.outLen → i < s.cfg.obufSize → s.port = .access (.read (obufAddr s.cfg i) 1) :: rest →
      step s = .next { s with port := rest, resp := some (.byte (s.byteAt .obuf i)) })

/-- R77, R287, U10: while a command runs, STATUS and CTRL are read and CTRL is written as specified, any other register reads an
unspecified value, and a write to ARG0, IN_LEN or IBUF is refused; the running command is left alone. The refusal, and the free
value at the reserved offsets, are the model's choice (log 4); so are the flags that STATUS shows while a command runs (log 25). -/
def Obligations.AccessesWhileBusy : Prop :=
  ∀ (s : State) (rest : List PortEvent) (v : Word), s.cfg.ok → s.busy = true →
    (s.port = .access (.read (regAddr s.cfg 0x004) 4) :: rest →
      step s = .next { s with port := rest, resp := some (.word s.statusWord) }) ∧
    (s.port = .access (.read (regAddr s.cfg 0x008) 4) :: rest →
      step s = .next { s with port := rest, resp := some (.word (BitVec.ofNat 32 s.ie.toNat)) }) ∧
    (s.port = .access (.write (regAddr s.cfg 0x008) 4 v) :: rest →
      step s = .next { s with port := rest, resp := some .ack, ie := v.getLsbD 0 }) ∧
    (∀ o, o < 0x1000 → o % 4 = 0 → o ≠ 0x004 → o ≠ 0x008 → s.port = .access (.read (regAddr s.cfg o) 4) :: rest →
      ∃ x, step s = .next { s with port := rest, resp := some (.word x), draws := s.draws + 1 }) ∧
    ((s.port = .access (.write (regAddr s.cfg 0x014) 4 v) :: rest ∨ s.port = .access (.write (regAddr s.cfg 0x024) 4 v) :: rest ∨
      ∃ i, i < s.cfg.ibufSize ∧ s.port = .access (.write (ibufAddr s.cfg i) 1 v) :: rest) →
      step s = .refused .hostWriteWhileBusy)

/-- R262: `irq = CTRL.IE AND (STATUS.DONE OR STATUS.ERR)`; accepting a command without ERR deasserts it, completion and error
assert it while IE is 1, clearing IE deasserts it. -/
def Obligations.InterruptRequestIsLevel : Prop :=
  (∀ s : State, s.irq = (s.ie && (s.done || s.err))) ∧
  (∀ (s : State) (w : Word), s.err = false → (s.accept w).irq = false) ∧
  (∀ (i : Instr) (s t : State), exec i s = .next t → t.irq = s.ie) ∧
  (∀ (s : State) (v : Word), v.getLsbD 0 = false → (s.writeCtrl v).irq = false)

/-- R50, R273, R280, R281: reset, at any time and whatever runs, gives every register and structure its reset value and leaves
nothing known of the memories (log 6); after it the block idles and keeps all its state (log 2). -/
def Obligations.ResetEmptiesTheBlock : Prop :=
  (∀ (s : State) (rest : List PortEvent), s.port = .reset :: rest →
    ∃ t, step s = .next t ∧
      (t.running = none ∧ t.done = false ∧ t.err = false ∧ t.treeValid = false ∧ t.ctValid = false ∧ t.ovr = false ∧
        t.ie = false ∧ t.errCode = 0 ∧ t.errInfo = 0 ∧ t.arg0 = 0 ∧ t.res0 = 0 ∧ t.res1 = 0 ∧ t.res2 = 0 ∧ t.inLen = 0 ∧
        t.outLen = 0 ∧ t.root = 0 ∧ t.pkLen = 0 ∧ t.pad = 0 ∧ t.hdrLen = 0) ∧
      (t.ft = [] ∧ t.node = [] ∧ t.pq = [] ∧ (∀ x, t.ct.get x = none) ∧ t.bitbuf = [] ∧ t.ibuf = [] ∧ t.obuf = [] ∧
        t.pbuf = []) ∧
      t.statusWord = 0x00000020#32 ∧ t.cfg = s.cfg ∧ t.port = rest) ∧
  (∀ (s : State) (rest : List PortEvent), s.running = none →
    (s.port = [] → step s = .next s) ∧ (s.port = .wait :: rest → step s = .next { s with port := rest }))

/-! ## Housekeeping commands -/

/-- R230: NOP writes only the completion flags, and is dropped while ERR is 1. -/
def Obligations.NopOnlyCompletes : Prop :=
  decode 0x00000000#32 = .ok .nop ∧
  (∀ s : State, exec .nop s = .next { s with done := true, running := none }) ∧
  (∀ s : State, s.busy = false → s.err = true → s.writeCmd 0x00000000#32 = s)

/-- R231: CLR empties the instance, leaves the error state, keeps IBUF, IN_LEN, ARG0, CTRL and the bytes of OBUF and PBUF, and is
the only command accepted while ERR is 1: a word of any other opcode is dropped with no change. -/
def Obligations.ClrStartsNewInstance : Prop :=
  decode 0x00000001#32 = .ok .clr ∧
  (∀ s : State, exec .clr s = .next { s with
    ft := [], node := [], pq := [], root := 0, treeValid := false, ctValid := false, ct := Vector.replicate 256 none
    bitbuf := [], pkLen := 0, pad := 0, hdrLen := 0, outLen := 0, res0 := 0, res1 := 0, res2 := 0
    err := false, ovr := false, errCode := 0, errInfo := 0, done := true, running := none }) ∧
  (∀ s : State, s.busy = false → s.writeCmd 0x00000001#32 = { s with running := some 0x00000001#32, done := false }) ∧
  (∀ (s : State) (w : Word), s.busy = false → s.err = true → w.extractLsb' 0 8 ≠ 0x01#8 → s.writeCmd w = s)

/-! ## frequency_table -/

/-- R131, R132, R133: FT_BUILD of an input that fits gives each symbol of the input once, with its number of occurrences, in the
order of first occurrence; the counts add up to IN_LEN; nothing else changes but the two valid flags and the completion flags. -/
def Obligations.FtBuildCountsSymbols : Prop :=
  ∀ s : State, s.inLen.toNat ≤ s.cfg.ibufSize → ∃ ft : FreqTable,
    exec .ftBuild s = .next { s with ft := ft, treeValid := false, ctValid := false, done := true, running := none } ∧
    (ft.map Prod.fst).Nodup ∧ (∀ x, x ∈ ft.map Prod.fst ↔ x ∈ s.input) ∧
    (∀ p ∈ ft, p.2.toNat = s.input.count p.1) ∧ (ft.map (fun p => p.2.toNat)).sum = s.inLen.toNat ∧
    (ft.map Prod.fst).Pairwise (fun x y => s.input.idxOf x < s.input.idxOf y)

/-- R33, R251: a command that reads IBUF checks IN_LEN when it starts: PreconditionError(1) when it exceeds IBUF_SIZE (BS_ASM
after its check of CT_VALID). -/
def Obligations.LongInputRaisesError : Prop :=
  ∀ s : State, s.cfg.ibufSize < s.inLen.toNat →
    exec .ftBuild s = .next (afterError s 6 1) ∧ exec .ccParse s = .next (afterError s 6 1) ∧
    exec .compress s = .next (afterError s 6 1) ∧ exec .decompress s = .next (afterError s 6 1) ∧
    (s.ctValid = true → exec .bsAsm s = .next (afterError s 6 1))

/-! ## tree_builder primitives and priority_queue -/

/-- R153: ND_LEAF allocates a leaf of its symbol and the weight in ARG0, and its errors in order. -/
def Obligations.NdLeafAllocatesLeaf : Prop :=
  (∀ x : Byte, decode (0x20#32 ||| x.setWidth 32 <<< 8) = .ok (.ndLeaf x)) ∧
  ∀ (x : Byte) (s : State),
    (s.arg0 = 0 → exec (.ndLeaf x) s = .next (afterError s 6 3)) ∧
    (s.arg0 ≠ 0 → HasLeaf s.node x → exec (.ndLeaf x) s = .next (afterError s 6 4)) ∧
    (s.arg0 ≠ 0 → ¬ HasLeaf s.node x → exec (.ndLeaf x) s = .next { s with
      node := s.node ++ [.leaf x s.arg0.toNat], res0 := BitVec.ofNat 32 s.node.length, done := true, running := none })

/-- R154, R155: ND_JOIN allocates the internal node over two parentless nodes, the lighter one left and the first operand on equal
weights, and its errors in order. -/
def Obligations.NdJoinAllocatesInternal : Prop :=
  (∀ a b : Nat, a < 512 → b < 512 →
    decode (0x21#32 ||| BitVec.ofNat 32 a <<< 8 ||| BitVec.ofNat 32 b <<< 17) = .ok (.ndJoin a b)) ∧
  ∀ (a b : Nat) (s : State),
    ((s.node.length ≤ a ∨ s.node.length ≤ b) → exec (.ndJoin a b) s = .next (afterError s 6 2)) ∧
    (a < s.node.length → a = b → exec (.ndJoin a b) s = .next (afterError s 6 5)) ∧
    (a < s.node.length → b < s.node.length → a ≠ b → (HasParent s.node a ∨ HasParent s.node b) →
      exec (.ndJoin a b) s = .next (afterError s 6 6)) ∧
    (∀ na nb, s.node[a]? = some na → s.node[b]? = some nb → a ≠ b → ¬ HasParent s.node a → ¬ HasParent s.node b →
      exec (.ndJoin a b) s = .next { s with
        node := s.node ++ [.internal (na.weight + nb.weight) (if na.weight ≤ nb.weight then a else b)
          (if na.weight ≤ nb.weight then b else a)]
        res0 := BitVec.ofNat 32 s.node.length, done := true, running := none })

/-- R156: TR_SET makes a parentless node the root of the active tree, invalidates the code table, and its errors in order. -/
def Obligations.TrSetNamesRoot : Prop :=
  (∀ a : Nat, a < 512 → decode (0x22#32 ||| BitVec.ofNat 32 a <<< 8) = .ok (.trSet a)) ∧
  ∀ (a : Nat) (s : State),
    (s.node.length ≤ a → exec (.trSet a) s = .next (afterError s 6 2)) ∧
    (a < s.node.length → HasParent s.node a → exec (.trSet a) s = .next (afterError s 6 6)) ∧
    (a < s.node.length → ¬ HasParent s.node a → exec (.trSet a) s = .next { s with
      root := a, treeValid := true, ctValid := false, done := true, running := none })

/-- R140, R141: PQ_ENQ puts the entry after the last one of weight at most its own, RES0 gets the new length, and its errors in
order; the queue is sorted, as it is in every reachable state (StepKeepsStructures). -/
def Obligations.PqEnqInsertsInOrder : Prop :=
  (∀ a : Nat, a < 512 → decode (0x28#32 ||| BitVec.ofNat 32 a <<< 8) = .ok (.pqEnq a)) ∧
  ∀ (a : Nat) (s : State),
    (s.node.length ≤ a → exec (.pqEnq a) s = .next (afterError s 6 2)) ∧
    (a < s.node.length → s.pq.length = 511 → exec (.pqEnq a) s = .next (afterError s 7 1)) ∧
    (∀ n, s.node[a]? = some n → s.pq.length ≠ 511 → queueSorted s.pq → ∃ before after,
      s.pq = before ++ after ∧ (∀ e ∈ before, e.weight ≤ n.weight) ∧ (∀ e ∈ after, n.weight < e.weight) ∧
      exec (.pqEnq a) s = .next { s with
        pq := before ++ ⟨n.weight, a⟩ :: after, res0 := BitVec.ofNat 32 (s.pq.length + 1), done := true, running := none })

/-- R142: PQ_DEQ removes the head, RES0 its index, RES1 and RES2 the low and the high word of its weight; in a sorted queue, as every
reachable one is (StepKeepsStructures), no entry has a smaller weight; on an empty queue PreconditionError(7). -/
def Obligations.PqDeqRemovesHead : Prop :=
  decode 0x00000029#32 = .ok .pqDeq ∧
  ∀ s : State,
    (s.pq = [] → exec .pqDeq s = .next (afterError s 6 7)) ∧
    (∀ e q, s.pq = e :: q → exec .pqDeq s = .next { s with
      pq := q, res0 := BitVec.ofNat 32 e.idx, res1 := BitVec.ofNat 32 (e.weight % 2 ^ 32)
      res2 := BitVec.ofNat 32 (e.weight / 2 ^ 32), done := true, running := none } ∧
      (queueSorted s.pq → ∀ x ∈ q, e.weight ≤ x.weight))

/-- R143, R144: PQ_SIZE and PQ_EMPTY write RES0 only, the number that PQ_SIZE and the flag that STATUS.PQ_EMPTY mirror. -/
def Obligations.PqSizeAndPqEmptyReport : Prop :=
  (decode 0x0000002A#32 = .ok .pqSize ∧ decode 0x0000002B#32 = .ok .pqEmpty) ∧
  ∀ s : State,
    exec .pqSize s = .next { s with res0 := BitVec.ofNat 32 s.pq.length, done := true, running := none } ∧
    exec .pqEmpty s = .next { s with res0 := if s.pq.length = 0 then 1 else 0, done := true, running := none } ∧
    s.readReg .pqSize = BitVec.ofNat 32 s.pq.length ∧ s.statusWord.getLsbD 5 = decide (s.pq.length = 0)

/-! ## TB_BUILD and CG_GEN -/

/-- R152, R161, R162: TB_BUILD is a function of the list FT alone: `2N - 1` nodes, the leaves first and in table order, every node
but the root with exactly one parent, the root node `2N - 2` with the sum of the counts; the queue is left empty; on an empty table
MissingInputError. -/
def Obligations.TbBuildTreeShape : Prop :=
  ∃ nodesOf : FreqTable → List Node, ∀ s : State,
    (s.ft = [] → exec .tbBuild s = .next (afterError s 1 0)) ∧
    (s.ft ≠ [] →
      exec .tbBuild s = .next { s with
        node := nodesOf s.ft, pq := [], root := 2 * s.ft.length - 2, treeValid := true, ctValid := false
        done := true, running := none } ∧
      (nodesOf s.ft).length = 2 * s.ft.length - 1 ∧
      (nodesOf s.ft).take s.ft.length = s.ft.map (fun p => Node.leaf p.1 p.2.toNat) ∧
      (nodesOf s.ft).filterMap Node.symbol? = s.ft.map Prod.fst ∧
      (∀ i, i < 2 * s.ft.length - 2 → (nodesOf s.ft).countP (Node.isParentOf i) = 1) ∧
      (nodesOf s.ft).countP (Node.isParentOf (2 * s.ft.length - 2)) = 0 ∧
      weightAt (nodesOf s.ft) (2 * s.ft.length - 2) = (s.ft.map (fun p => p.2.toNat)).sum)

/-- R158: from an empty store and queue, the host program of the primitives never fails on a table and ends in the state of one
TB_BUILD, but for RES0 to RES2 and the operand register the host wrote. -/
def Obligations.TbBuildEqualsPrimitives : Prop :=
  ∀ s : State, tableWf s.ft → s.ft ≠ [] →
    ∃ u, buildByPrimitives s.ft { s with node := [], pq := [] } = .next u ∧
      exec .tbBuild s = .next { u with res0 := s.res0, res1 := s.res1, res2 := s.res2, arg0 := s.arg0 }

/-- R171, R172: CG_GEN gives each symbol the path from the root to its leaf, 0 for left and 1 for right, and to the symbol of a
root that is a leaf the code 0; every other entry is none; without a tree MissingTreeError. -/
def Obligations.CgGenCodesArePaths : Prop :=
  decode 0x00000040#32 = .ok .cgGen ∧
  ∀ s : State,
    (s.treeValid = false → exec .cgGen s = .next (afterError s 2 0)) ∧
    (s.treeValid = true → storeWf s.node → s.root < s.node.length → ∃ ct : CodeTable,
      exec .cgGen s = .next { s with ct := ct, ctValid := true, done := true, running := none } ∧
      (∀ x w, s.node[s.root]? = some (.leaf x w) → ∀ y, ct.get y = if y = x then some [false] else none) ∧
      (∀ w l r, s.node[s.root]? = some (.internal w l r) →
        ∀ x c, ct.get x = some c ↔ ∃ v, followPath s.node s.root c = some (.leaf x v)))

/-- R173, R174: CG_GEN's codes are non-empty and none is a prefix of another. -/
def Obligations.CgGenCodesPrefixFree : Prop :=
  ∀ s : State, s.treeValid = true → storeWf s.node → s.root < s.node.length →
    ∃ t, exec .cgGen s = .next t ∧ t.done = true ∧ codesWf t.ct

/-- R45, R171 (corner cases): no code of CG_GEN is longer than CODE_MAX = 255 bits. -/
def Obligations.CodeLengthBounded : Prop :=
  ∀ s t : State, s.treeValid = true → storeWf s.node → s.root < s.node.length → exec .cgGen s = .next t →
    ∀ x c, t.ct.get x = some c → 1 ≤ c.length ∧ c.length ≤ 255

/-! ## BS_ASM, BP_PACK, BP_UNPACK -/

/-- R181: BS_ASM concatenates the codes of the input, and its errors in order, the first offending input offset deciding. -/
def Obligations.BsAsmConcatenatesCodes : Prop :=
  decode 0x00000050#32 = .ok .bsAsm ∧
  ∀ s : State,
    (s.ctValid = false → exec .bsAsm s = .next (afterError s 8 0)) ∧
    (s.ctValid = true → s.cfg.ibufSize < s.inLen.toNat → exec .bsAsm s = .next (afterError s 6 1)) ∧
    (s.ctValid = true → s.inLen.toNat ≤ s.cfg.ibufSize →
      (allCoded s.ct s.input → (encodeText s.ct s.input).length ≤ 8 * s.cfg.pbufSize →
        exec .bsAsm s = .next { s with bitbuf := encodeText s.ct s.input, done := true, running := none }) ∧
      (∀ xs x ys, s.input = xs ++ x :: ys → allCoded s.ct xs → (encodeText s.ct xs).length ≤ 8 * s.cfg.pbufSize →
        (s.ct.get x = none → exec .bsAsm s = .next (afterError s 6 8)) ∧
        (∀ c, s.ct.get x = some c → 8 * s.cfg.pbufSize < (encodeText s.ct xs).length + c.length →
          exec .bsAsm s = .next (afterError s 7 2))))

/-- R184, R185, R186: BP_PACK leaves the bytes whose bits, most significant first, are BITBUF followed by PAD zero bits, with PAD
from 0 to 7 and `8 * PK_LEN - PAD = BIT_LEN`; nothing else changes. -/
def Obligations.BpPackPadsToBytes : Prop :=
  decode 0x00000051#32 = .ok .bpPack ∧
  ∀ s : State, ∃ t, exec .bpPack s = .next t ∧
    t = { s with pbuf := t.pbuf, pkLen := t.pkLen, pad := t.pad, done := true, running := none } ∧
    t.pad ≤ 7 ∧ 8 * t.pkLen = s.bitbuf.length + t.pad ∧
    unpackBytes t.payload = s.bitbuf ++ List.replicate t.pad false

/-- R186, R187: BP_UNPACK expands each payload byte to its bits, most significant first, in byte order; nothing else changes. -/
def Obligations.BpUnpackExpandsBytes : Prop :=
  decode 0x00000052#32 = .ok .bpUnpack ∧
  ∀ s : State, ∃ t, exec .bpUnpack s = .next t ∧
    t = { s with bitbuf := t.bitbuf, done := true, running := none } ∧ t.bitbuf.length = 8 * s.pkLen ∧
    t.bitbuf = s.payload.flatMap (fun b => [b.getLsbD 7, b.getLsbD 6, b.getLsbD 5, b.getLsbD 4] ++
      [b.getLsbD 3, b.getLsbD 2, b.getLsbD 1, b.getLsbD 0])

/-! ## CC_ENCODE and CC_PARSE -/

/-- R105: `dec(n)` is the digits of `n` with no leading zero; `undec` is defined exactly on non-empty digit texts, as their value,
leading zeros accepted; it inverts `dec`. -/
def Obligations.DecimalTextRoundTrip : Prop :=
  (∀ n, undecText (decText n) = some n) ∧ decText 0 = [0x30#8] ∧ (∀ n, 0 < n → (decText n).head? ≠ some 0x30#8) ∧
  (∀ bs, (bs ≠ [] ∧ ∀ b ∈ bs, isDigit b) → undecText bs = some (textValue bs)) ∧
  (∀ bs, ¬ (bs ≠ [] ∧ ∀ b ∈ bs, isDigit b) → undecText bs = none)

/-- R201, R204: `ser` writes 5 bytes a pair and `deser` inverts it on tables that meet R39; `deser` fails with cause 6 on a length
that is no multiple of 5, and else at the first record of count 0 (cause 7) or of a symbol met before (cause 8). -/
def Obligations.TableRecordsRoundTrip : Prop :=
  (∀ ft, serTable ft = ft.flatMap recordBytes ∧ (serTable ft).length = 5 * ft.length) ∧
  (∀ ft, tableWf ft → deserTable (serTable ft) = .ok ft) ∧
  (∀ bs : List Byte, bs.length % 5 ≠ 0 → deserTable bs = .error 6) ∧
  (∀ ft x (rest : List Byte), tableWf ft → rest.length % 5 = 0 →
    deserTable (serTable ft ++ recordBytes (x, 0) ++ rest) = .error 7) ∧
  (∀ ft x c (rest : List Byte), tableWf ft → rest.length % 5 = 0 → c ≠ 0 → x ∈ ft.map Prod.fst →
    deserTable (serTable ft ++ recordBytes (x, c) ++ rest) = .error 8)

/-- R201, R202, R203: CC_ENCODE writes the metadata line, the records and the payload to OBUF from offset 0, with OUT_LEN and
HDR_LEN; CapacityError(4) when they do not fit; nothing else changes. -/
def Obligations.CcEncodeWritesContainer : Prop :=
  decode 0x00000060#32 = .ok .ccEncode ∧
  ∀ (s : State) (out : List Byte),
    out = decText (5 * s.ft.length) ++ [0x0A#8, BitVec.ofNat 8 (0x30 + s.pad), 0x0A#8] ++ s.ft.flatMap recordBytes ++ s.payload →
    (s.cfg.obufSize < out.length → exec .ccEncode s = .next (afterError s 7 4)) ∧
    (out.length ≤ s.cfg.obufSize → ∃ t, exec .ccEncode s = .next t ∧
      t = { s with obuf := t.obuf, outLen := t.outLen, hdrLen := t.hdrLen, done := true, running := none } ∧
      t.output = out ∧ t.outLen = out.length ∧ t.hdrLen = 5 * s.ft.length)

/-- R109, R206, R208: CC_PARSE takes exactly the containers whose payload fits PBUF: from one it commits the table, HDR_LEN, PAD
and the payload and changes nothing else but the two valid flags; and whatever it takes is one. -/
def Obligations.CcParseTakesExactlyContainers : Prop :=
  decode 0x00000061#32 = .ok .ccParse ∧
  (∀ (s : State) (digits : List Byte) (pad : Nat) (ft : FreqTable) (payload : List Byte),
    s.inLen.toNat ≤ s.cfg.ibufSize → isContainer s.input digits pad ft payload → payload.length ≤ s.cfg.pbufSize →
    ∃ t, exec .ccParse s = .next t ∧
      t = { s with
        ft := ft, hdrLen := 5 * ft.length, pad := pad, pbuf := t.pbuf, pkLen := payload.length
        treeValid := false, ctValid := false, done := true, running := none } ∧
      t.payload = payload) ∧
  (∀ s t : State, exec .ccParse s = .next t → t.done = true →
    s.inLen.toNat ≤ s.cfg.ibufSize ∧ ∃ digits pad ft payload,
      isContainer s.input digits pad ft payload ∧ payload.length ≤ s.cfg.pbufSize ∧ t.ft = ft ∧ t.pad = pad ∧
      t.payload = payload)

/-- R206, R207, R208, R264: the causes of MalformedContainerError in step order, and CapacityError(3), for an input whose length
fits: `digits` the bytes before the first LF, then what follows it. -/
def Obligations.CcParseCausesInOrder : Prop :=
  ∀ s : State, s.inLen.toNat ≤ s.cfg.ibufSize →
    (0x0A#8 ∉ s.input → exec .ccParse s = .next (afterError s 3 1)) ∧
    ∀ digits rest, s.input = digits ++ 0x0A#8 :: rest → 0x0A#8 ∉ digits →
      (¬ (digits ≠ [] ∧ ∀ b ∈ digits, isDigit b) → exec .ccParse s = .next (afterError s 3 2)) ∧
      ((digits ≠ [] ∧ ∀ b ∈ digits, isDigit b) →
        (rest = [] → exec .ccParse s = .next (afterError s 3 3)) ∧
        ∀ c more, rest = c :: more →
          ((c.toNat < 0x30 ∨ 0x37 < c.toNat) → exec .ccParse s = .next (afterError s 3 3)) ∧
          (0x30 ≤ c.toNat → c.toNat ≤ 0x37 →
            (more.head? ≠ some 0x0A#8 → exec .ccParse s = .next (afterError s 3 4)) ∧
            ∀ body, more = 0x0A#8 :: body →
              (body.length < textValue digits → exec .ccParse s = .next (afterError s 3 5)) ∧
              (textValue digits ≤ body.length →
                (∀ k, deserTable (body.take (textValue digits)) = .error k →
                  exec .ccParse s = .next (afterError s 3 (BitVec.ofNat 32 k))) ∧
                (∀ ft, deserTable (body.take (textValue digits)) = .ok ft →
                  (body.length = textValue digits → c ≠ 0x30#8 → exec .ccParse s = .next (afterError s 3 9)) ∧
                  (s.cfg.pbufSize < body.length - textValue digits → exec .ccParse s = .next (afterError s 7 3))))))

/-- R209: what CC_ENCODE wrote, presented as the input, CC_PARSE takes and restores: the table in its order, the payload, PK_LEN,
PAD and HDR_LEN. -/
def Obligations.CodecRoundTrip : Prop :=
  ∀ s t u : State, tableWf s.ft → s.pad ≤ 7 → (s.pkLen = 0 → s.pad = 0) → exec .ccEncode s = .next t → t.done = true →
    u.input = t.output → u.inLen.toNat ≤ u.cfg.ibufSize → s.pkLen ≤ u.cfg.pbufSize →
    ∃ v, exec .ccParse u = .next v ∧ v.done = true ∧ v.ft = s.ft ∧ v.payload = s.payload ∧ v.pkLen = s.pkLen ∧
      v.pad = s.pad ∧ v.hdrLen = t.hdrLen

/-! ## BD_DECODE -/

/-- R226: when the first `V = BIT_LEN - PAD` bits are the codes of a text that fits OBUF, BD_DECODE gives that text; nothing but
OBUF, OUT_LEN and the completion flags changes. The code table is prefix-free, as CG_GEN makes it (CgGenCodesPrefixFree). -/
def Obligations.BdDecodeInvertsAssembly : Prop :=
  ∀ (s : State) (xs : List Byte), s.ctValid = true → codesWf s.ct → s.pad ≤ s.bitbuf.length →
    s.bitbuf.take (s.bitbuf.length - s.pad) = encodeText s.ct xs → allCoded s.ct xs → xs.length ≤ s.cfg.obufSize →
    ∃ t, exec .bdDecode s = .next t ∧ t = { s with obuf := t.obuf, outLen := t.outLen, done := true, running := none } ∧
      t.output = xs ∧ t.outLen = xs.length

/-- R222, R223, R224: the errors of BD_DECODE: no code table; PAD above BIT_LEN; the bits ending inside a code (UnknownSymbolError
of V); a bit that leads nowhere (UnknownSymbolError of its position); one symbol more than OBUF holds. -/
def Obligations.BdDecodeErrors : Prop :=
  ∀ s : State,
    (s.ctValid = false → exec .bdDecode s = .next (afterError s 8 0)) ∧
    (s.ctValid = true → s.bitbuf.length < s.pad → exec .bdDecode s = .next (afterError s 6 9)) ∧
    (∀ (xs : List Byte) (acc tail : Bits), s.ctValid = true → codesWf s.ct → s.pad ≤ s.bitbuf.length →
      s.bitbuf.take (s.bitbuf.length - s.pad) = encodeText s.ct xs ++ acc ++ tail → allCoded s.ct xs →
      xs.length ≤ s.cfg.obufSize → (acc = [] ∨ ∃ c ∈ codesOf s.ct, acc <+: c ∧ acc ≠ c) →
      (tail = [] → acc ≠ [] →
        exec .bdDecode s = .next (afterError s 4 (BitVec.ofNat 32 (s.bitbuf.length - s.pad)))) ∧
      (∀ b rest, tail = b :: rest → (∀ c ∈ codesOf s.ct, ¬ acc ++ [b] <+: c) →
        exec .bdDecode s = .next (afterError s 4 (BitVec.ofNat 32 ((encodeText s.ct xs).length + acc.length)))) ∧
      (∀ b rest, tail = b :: rest → acc ++ [b] ∈ codesOf s.ct → xs.length = s.cfg.obufSize →
        exec .bdDecode s = .next (afterError s 7 4)))

/-- R225: with the code table of the current tree, BD_DECODE gives what the walk of the tree gives: the same output or the same
error. -/
def Obligations.BdDecodeEqualsTreeWalk : Prop :=
  ∀ s : State, s.codeTableCurrent → s.ctValid = true → s.pad ≤ s.bitbuf.length →
    (∀ out, treeWalk s.node s.root s.cfg.obufSize (s.bitbuf.take (s.bitbuf.length - s.pad)) 0 s.root [] = .ok out →
      ∃ t, exec .bdDecode s = .next t ∧ t.done = true ∧ t.output = out ∧ t.outLen = out.length) ∧
    (∀ e, treeWalk s.node s.root s.cfg.obufSize (s.bitbuf.take (s.bitbuf.length - s.pad)) 0 s.root [] = .error e →
      exec .bdDecode s = .next (afterError s e.kind.code (BitVec.ofNat 32 e.info)))

/-! ## COMPRESS and DECOMPRESS -/

/-- R152, R233, R234: COMPRESS of a non-empty input gives its container: `meta(5 * FT_N, p) ++ ser(FT) ++ bytes` with FT the counted
table, the code of its tree, and the packed bits, and leaves that tree active; CapacityError(2) when the bits exceed BIT_CAP,
CapacityError(4) when the container exceeds OBUF_SIZE (of the bytes of PBUF that the packing wrote by then nothing is said, R257). -/
def Obligations.CompressWritesContainer : Prop :=
  decode 0x00000080#32 = .ok .compress ∧
  ∀ (s : State) (ft : FreqTable) (ct : CodeTable) (bits : Bits) (out : List Byte), 0 < s.inLen.toNat →
    s.inLen.toNat ≤ s.cfg.ibufSize → ft = buildTable s.input → ct = codeTableOf ft → bits = encodeText ct s.input →
    out = metaLine (5 * ft.length) (padCount bits.length) ++ ft.flatMap recordBytes ++ packBytes bits →
    (8 * s.cfg.pbufSize < bits.length → exec .compress s = .next (afterError s 7 2)) ∧
    (bits.length ≤ 8 * s.cfg.pbufSize → s.cfg.obufSize < out.length →
      ∃ t, exec .compress s = .next t ∧ t = { afterError s 7 4 with pbuf := t.pbuf }) ∧
    (bits.length ≤ 8 * s.cfg.pbufSize → out.length ≤ s.cfg.obufSize → ∃ t, exec .compress s = .next t ∧
      t = { s with
        ft := ft, node := (buildTree ft).1, root := 2 * ft.length - 2, pq := [], treeValid := true, ctValid := true, ct := ct
        bitbuf := bits, pbuf := t.pbuf, pkLen := (packBytes bits).length, pad := padCount bits.length, hdrLen := 5 * ft.length
        obuf := t.obuf, outLen := out.length, res0 := 0, res1 := 0, res2 := 0, done := true, running := none } ∧
      t.output = out ∧ t.payload = packBytes bits ∧ allCoded ct s.input)

/-- R239: COMPRESS of the empty input raises MissingInputError(0). -/
def Obligations.CompressEmptyInputRaisesError : Prop :=
  ∀ s : State, s.inLen = 0 → exec .compress s = .next (afterError s 1 0) ∧ (afterError s 1 0).outLen = 0

/-- R238: COMPRESS is a function of IN_LEN and `IBUF[0 .. IN_LEN-1]` alone, on a block of the same parameters: the same outcome, the
same instance state (every structure, length, valid flag and result register, the payload and the output), and the same error. -/
def Obligations.CompressIsDeterministic : Prop :=
  ∀ s u : State, s.cfg = u.cfg → s.inLen = u.inLen → (∀ a, a < s.inLen.toNat → s.byteAt .ibuf a = u.byteAt .ibuf a) →
    ∃ t v, exec .compress s = .next t ∧ exec .compress u = .next v ∧ t.done = v.done ∧ t.outLen = v.outLen ∧
      t.output = v.output ∧
      (t.ft = v.ft ∧ t.node = v.node ∧ t.pq = v.pq ∧ t.root = v.root ∧ t.treeValid = v.treeValid ∧ t.ctValid = v.ctValid ∧
        t.ct = v.ct ∧ t.bitbuf = v.bitbuf) ∧
      (t.pkLen = v.pkLen ∧ t.payload = v.payload ∧ t.pad = v.pad ∧ t.hdrLen = v.hdrLen ∧ t.res0 = v.res0 ∧ t.res1 = v.res1 ∧
        t.res2 = v.res2) ∧
      (t.done = false → t.err = true ∧ v.err = true ∧ t.errCode = v.errCode ∧ t.errInfo = v.errInfo)

/-- R152, R221, R226, R235: DECOMPRESS of a container with a table that is not empty, whose payload but for the padding is the codes of
a text that fits OBUF, gives that text and leaves the table's tree active. It raises what CC_PARSE raises on the same input; of a
container with an empty table, MissingInputError; and else what the decoding of the payload's bits under the table's code raises
(R222). Of the bytes of PBUF that the parser wrote before these last two nothing is said (R257). -/
def Obligations.DecompressReturnsText : Prop :=
  decode 0x00000081#32 = .ok .decompress ∧
  (∀ (s : State) (code : Byte) (info : Word), exec .ccParse s = .next (afterError s code info) →
    exec .decompress s = .next (afterError s code info)) ∧
  ∀ (s : State) (digits : List Byte) (pad : Nat) (ft : FreqTable) (payload : List Byte),
    s.inLen.toNat ≤ s.cfg.ibufSize → isContainer s.input digits pad ft payload → payload.length ≤ s.cfg.pbufSize →
    (ft = [] → ∃ t, exec .decompress s = .next t ∧ t = { afterError s 1 0 with pbuf := t.pbuf }) ∧
    (∀ e, ft ≠ [] →
      decodeBits (codeTableOf ft) s.cfg.obufSize ((unpackBytes payload).take (8 * payload.length - pad)) 0 [] [] = .error e →
      ∃ t, exec .decompress s = .next t ∧ t = { afterError s e.kind.code (BitVec.ofNat 32 e.info) with pbuf := t.pbuf }) ∧
    (∀ xs, ft ≠ [] → (unpackBytes payload).take (8 * payload.length - pad) = encodeText (codeTableOf ft) xs →
      allCoded (codeTableOf ft) xs → xs.length ≤ s.cfg.obufSize → ∃ t, exec .decompress s = .next t ∧
      t = { s with
        ft := ft, node := (buildTree ft).1, root := 2 * ft.length - 2, pq := [], treeValid := true, ctValid := true
        ct := codeTableOf ft, bitbuf := unpackBytes payload, pbuf := t.pbuf, pkLen := payload.length, pad := pad
        hdrLen := 5 * ft.length, obuf := t.obuf, outLen := xs.length, res0 := 0, res1 := 0, res2 := 0, done := true, running := none } ∧
      t.output = xs ∧ t.payload = payload)

/-- R237: what COMPRESS made of a non-empty input, presented as the input of DECOMPRESS on the same block, gives the original input
back, when it fits the buffers. -/
def Obligations.CompressDecompressRoundTrip : Prop :=
  ∀ s t u : State, 1 ≤ s.inLen.toNat → s.inLen.toNat ≤ s.cfg.ibufSize → s.inLen.toNat ≤ s.cfg.obufSize →
    exec .compress s = .next t → t.done = true → u.cfg = s.cfg → u.input = t.output → u.inLen.toNat ≤ u.cfg.ibufSize →
    ∃ v, exec .decompress u = .next v ∧ v.done = true ∧ v.outLen = s.inLen.toNat ∧ v.output = s.input

/-! ## Rules of the whole machine -/

/-- R252, R256, R257, R263, R285: every command ends, in DONE without a new error or in exactly the error entry with a code from 1
to 8, of the stored bytes of PBUF and OBUF nothing said; NOP, CLR, PQ_SIZE, PQ_EMPTY, BP_PACK and BP_UNPACK always succeed. -/
def Obligations.EveryCommandEnds : Prop :=
  ∀ (i : Instr) (s : State), ∃ t, exec i s = .next t ∧ t.running = none ∧
    ((t.done = true ∧ (i = .clr → t.err = false) ∧ (i ≠ .clr → t.err = s.err)) ∨
      ∃ (code : Byte) (info : Word), 1 ≤ code.toNat ∧ code.toNat ≤ 8 ∧
        t = { afterError s code info with pbuf := t.pbuf, obuf := t.obuf }) ∧
    (i ∈ [Instr.nop, .clr, .pqSize, .pqEmpty, .bpPack, .bpUnpack] → t.done = true)

/-- R21: RES0 to RES2 are written only by the commands whose rules say so, set to 0 by CLR, COMPRESS, DECOMPRESS and every error,
and else kept; ARG0 is written by no command and read by ND_LEAF only. -/
def Obligations.ResultRegistersWrittenOnlyByRule : Prop :=
  ∀ (i : Instr) (s t : State), exec i s = .next t →
    (t.done = false → t.res0 = 0 ∧ t.res1 = 0 ∧ t.res2 = 0) ∧
    (t.done = true → clearsResults i = true → t.res0 = 0 ∧ t.res1 = 0 ∧ t.res2 = 0) ∧
    (t.done = true → clearsResults i = false → writesResult i = false →
      t.res0 = s.res0 ∧ t.res1 = s.res1 ∧ t.res2 = s.res2) ∧
    t.arg0 = s.arg0 ∧
    (∀ v, (∀ x, i ≠ .ndLeaf x) → exec i { s with arg0 := v } = .next { t with arg0 := v })

/-- R29: which commands set and clear TREE_VALID and CT_VALID; every error and reset clear both. -/
def Obligations.ValidFlagsFollowTheStages : Prop :=
  (∀ (i : Instr) (s t : State), exec i s = .next t →
    (t.done = true → t.treeValid = treeValidAfter i s.treeValid ∧ t.ctValid = ctValidAfter i s.ctValid) ∧
    (t.done = false → t.treeValid = false ∧ t.ctValid = false)) ∧
  (∀ s : State, s.resetEvent.treeValid = false ∧ s.resetEvent.ctValid = false)

/-- R31, R32, R33, R48, R73, R256: no command changes IBUF, IN_LEN, ARG0, CTRL, the port or the parameters; OVR changes only by
CLR; ERR_CODE and ERR_INFO only by CLR and by an error. -/
def Obligations.CommandsKeepHostState : Prop :=
  ∀ (i : Instr) (s t : State), exec i s = .next t →
    (t.ibuf = s.ibuf ∧ t.inLen = s.inLen ∧ t.arg0 = s.arg0 ∧ t.ie = s.ie ∧ t.cfg = s.cfg ∧ t.epoch = s.epoch ∧
      t.draws = s.draws ∧ t.port = s.port ∧ t.resp = s.resp) ∧
    (i ≠ .clr → t.ovr = s.ovr) ∧ (i ≠ .clr → t.done = true → t.errCode = s.errCode ∧ t.errInfo = s.errInfo)

/-- R46, R48, R49, R73: the frame of memory: no command changes a byte of IBUF; a command that stores nothing in PBUF or OBUF
changes no byte of it; a command that succeeded in storing changes only PBUF below PK_LEN and OBUF below OUT_LEN. -/
def Obligations.CommandsKeepOtherBytes : Prop :=
  ∀ (i : Instr) (s t : State), exec i s = .next t →
    (∀ a, t.byteAt .ibuf a = s.byteAt .ibuf a) ∧
    (storesPbuf i = false → ∀ a, t.byteAt .pbuf a = s.byteAt .pbuf a) ∧
    (storesObuf i = false → ∀ a, t.byteAt .obuf a = s.byteAt .obuf a) ∧
    (storesPbuf i = true → t.done = true → ∀ a, t.pkLen ≤ a → t.byteAt .pbuf a = s.byteAt .pbuf a) ∧
    (storesObuf i = true → t.done = true → ∀ a, t.outLen ≤ a → t.byteAt .obuf a = s.byteAt .obuf a)

/-! ## Invariants -/

/-- R6, R39, R42, R43, R50: the state after reset meets every invariant below, with parameters in the ranges of R6. -/
def Obligations.ResetMeetsInvariants : Prop :=
  State.reset.cfg.ok ∧ State.reset.codeTableCurrent ∧ State.reset.buffersWf ∧ State.reset.errorStateWf

/-- R39, R42, R43, R44: every step keeps the frequency table, the node store, the queue and the active tree well formed. -/
def Obligations.StepKeepsStructures : Prop := ∀ s t : State, s.structuresWf → step s = .next t → t.structuresWf

/-- R34, R35, R46, R48, R49, R72: every step keeps the lengths in range and the three memories in canonical form, inside their
sizes, and their valid bytes known. The form of a memory is the model's (log 17). -/
def Obligations.StepKeepsBuffers : Prop := ∀ s t : State, s.buffersWf → step s = .next t → t.buffersWf

/-- R27, R28, R32, R256, R258: every step keeps the error state as it is: while ERR is 1 the instance is empty and only CLR's
opcode runs. -/
def Obligations.StepKeepsErrorState : Prop := ∀ s t : State, s.errorStateWf → step s = .next t → t.errorStateWf

/-- R29, R44, R45: every step keeps a valid code table that of the active tree. -/
def Obligations.StepKeepsCodeTableCurrent : Prop :=
  ∀ s t : State, s.codeTableCurrent → step s = .next t → t.codeTableCurrent

/-- R42, R151: a well-formed node store has at most 511 nodes and every weight in it is below `2^40`. -/
def Obligations.NodeStoreBounded : Prop :=
  ∀ nodes : List Node, storeWf nodes → nodes.length ≤ 511 ∧ ∀ n ∈ nodes, n.weight < 2 ^ 40
end

