-- ==== Sys2Proof/Laws/State.lean ====
section
/-! SUPPORT. What each update of the state leaves in each field: one lemma per field per update, true by unfolding the update. -/

namespace Sys2Proof.Machine

variable (s : State)

/-! ### `accept` (R90 step 3) -/

@[simp] theorem State.accept_running (w : Word) : (s.accept w).running = some w := rfl
@[simp] theorem State.accept_done (w : Word) : (s.accept w).done = false := rfl
@[simp] theorem State.accept_err (w : Word) : (s.accept w).err = s.err := rfl
@[simp] theorem State.accept_treeValid (w : Word) : (s.accept w).treeValid = s.treeValid := rfl
@[simp] theorem State.accept_ctValid (w : Word) : (s.accept w).ctValid = s.ctValid := rfl
@[simp] theorem State.accept_ovr (w : Word) : (s.accept w).ovr = s.ovr := rfl
@[simp] theorem State.accept_ie (w : Word) : (s.accept w).ie = s.ie := rfl
@[simp] theorem State.accept_errCode (w : Word) : (s.accept w).errCode = s.errCode := rfl
@[simp] theorem State.accept_errInfo (w : Word) : (s.accept w).errInfo = s.errInfo := rfl
@[simp] theorem State.accept_arg0 (w : Word) : (s.accept w).arg0 = s.arg0 := rfl
@[simp] theorem State.accept_res0 (w : Word) : (s.accept w).res0 = s.res0 := rfl
@[simp] theorem State.accept_res1 (w : Word) : (s.accept w).res1 = s.res1 := rfl
@[simp] theorem State.accept_res2 (w : Word) : (s.accept w).res2 = s.res2 := rfl
@[simp] theorem State.accept_inLen (w : Word) : (s.accept w).inLen = s.inLen := rfl
@[simp] theorem State.accept_outLen (w : Word) : (s.accept w).outLen = s.outLen := rfl
@[simp] theorem State.accept_root (w : Word) : (s.accept w).root = s.root := rfl
@[simp] theorem State.accept_pkLen (w : Word) : (s.accept w).pkLen = s.pkLen := rfl
@[simp] theorem State.accept_pad (w : Word) : (s.accept w).pad = s.pad := rfl
@[simp] theorem State.accept_hdrLen (w : Word) : (s.accept w).hdrLen = s.hdrLen := rfl
@[simp] theorem State.accept_ft (w : Word) : (s.accept w).ft = s.ft := rfl
@[simp] theorem State.accept_node (w : Word) : (s.accept w).node = s.node := rfl
@[simp] theorem State.accept_pq (w : Word) : (s.accept w).pq = s.pq := rfl
@[simp] theorem State.accept_ct (w : Word) : (s.accept w).ct = s.ct := rfl
@[simp] theorem State.accept_bitbuf (w : Word) : (s.accept w).bitbuf = s.bitbuf := rfl
@[simp] theorem State.accept_pbuf (w : Word) : (s.accept w).pbuf = s.pbuf := rfl
@[simp] theorem State.accept_ibuf (w : Word) : (s.accept w).ibuf = s.ibuf := rfl
@[simp] theorem State.accept_obuf (w : Word) : (s.accept w).obuf = s.obuf := rfl
@[simp] theorem State.accept_cfg (w : Word) : (s.accept w).cfg = s.cfg := rfl
@[simp] theorem State.accept_epoch (w : Word) : (s.accept w).epoch = s.epoch := rfl
@[simp] theorem State.accept_draws (w : Word) : (s.accept w).draws = s.draws := rfl
@[simp] theorem State.accept_port (w : Word) : (s.accept w).port = s.port := rfl
@[simp] theorem State.accept_resp (w : Word) : (s.accept w).resp = s.resp := rfl

/-! ### `complete` (R90 step 6) -/

@[simp] theorem State.complete_running : (s.complete).running = none := rfl
@[simp] theorem State.complete_done : (s.complete).done = true := rfl
@[simp] theorem State.complete_err : (s.complete).err = s.err := rfl
@[simp] theorem State.complete_treeValid : (s.complete).treeValid = s.treeValid := rfl
@[simp] theorem State.complete_ctValid : (s.complete).ctValid = s.ctValid := rfl
@[simp] theorem State.complete_ovr : (s.complete).ovr = s.ovr := rfl
@[simp] theorem State.complete_ie : (s.complete).ie = s.ie := rfl
@[simp] theorem State.complete_errCode : (s.complete).errCode = s.errCode := rfl
@[simp] theorem State.complete_errInfo : (s.complete).errInfo = s.errInfo := rfl
@[simp] theorem State.complete_arg0 : (s.complete).arg0 = s.arg0 := rfl
@[simp] theorem State.complete_res0 : (s.complete).res0 = s.res0 := rfl
@[simp] theorem State.complete_res1 : (s.complete).res1 = s.res1 := rfl
@[simp] theorem State.complete_res2 : (s.complete).res2 = s.res2 := rfl
@[simp] theorem State.complete_inLen : (s.complete).inLen = s.inLen := rfl
@[simp] theorem State.complete_outLen : (s.complete).outLen = s.outLen := rfl
@[simp] theorem State.complete_root : (s.complete).root = s.root := rfl
@[simp] theorem State.complete_pkLen : (s.complete).pkLen = s.pkLen := rfl
@[simp] theorem State.complete_pad : (s.complete).pad = s.pad := rfl
@[simp] theorem State.complete_hdrLen : (s.complete).hdrLen = s.hdrLen := rfl
@[simp] theorem State.complete_ft : (s.complete).ft = s.ft := rfl
@[simp] theorem State.complete_node : (s.complete).node = s.node := rfl
@[simp] theorem State.complete_pq : (s.complete).pq = s.pq := rfl
@[simp] theorem State.complete_ct : (s.complete).ct = s.ct := rfl
@[simp] theorem State.complete_bitbuf : (s.complete).bitbuf = s.bitbuf := rfl
@[simp] theorem State.complete_pbuf : (s.complete).pbuf = s.pbuf := rfl
@[simp] theorem State.complete_ibuf : (s.complete).ibuf = s.ibuf := rfl
@[simp] theorem State.complete_obuf : (s.complete).obuf = s.obuf := rfl
@[simp] theorem State.complete_cfg : (s.complete).cfg = s.cfg := rfl
@[simp] theorem State.complete_epoch : (s.complete).epoch = s.epoch := rfl
@[simp] theorem State.complete_draws : (s.complete).draws = s.draws := rfl
@[simp] theorem State.complete_port : (s.complete).port = s.port := rfl
@[simp] theorem State.complete_resp : (s.complete).resp = s.resp := rfl

/-! ### `clearInstance` (R51) -/

@[simp] theorem State.clearInstance_running : (s.clearInstance).running = s.running := rfl
@[simp] theorem State.clearInstance_done : (s.clearInstance).done = s.done := rfl
@[simp] theorem State.clearInstance_err : (s.clearInstance).err = s.err := rfl
@[simp] theorem State.clearInstance_treeValid : (s.clearInstance).treeValid = false := rfl
@[simp] theorem State.clearInstance_ctValid : (s.clearInstance).ctValid = false := rfl
@[simp] theorem State.clearInstance_ovr : (s.clearInstance).ovr = s.ovr := rfl
@[simp] theorem State.clearInstance_ie : (s.clearInstance).ie = s.ie := rfl
@[simp] theorem State.clearInstance_errCode : (s.clearInstance).errCode = s.errCode := rfl
@[simp] theorem State.clearInstance_errInfo : (s.clearInstance).errInfo = s.errInfo := rfl
@[simp] theorem State.clearInstance_arg0 : (s.clearInstance).arg0 = s.arg0 := rfl
@[simp] theorem State.clearInstance_res0 : (s.clearInstance).res0 = 0 := rfl
@[simp] theorem State.clearInstance_res1 : (s.clearInstance).res1 = 0 := rfl
@[simp] theorem State.clearInstance_res2 : (s.clearInstance).res2 = 0 := rfl
@[simp] theorem State.clearInstance_inLen : (s.clearInstance).inLen = s.inLen := rfl
@[simp] theorem State.clearInstance_outLen : (s.clearInstance).outLen = 0 := rfl
@[simp] theorem State.clearInstance_root : (s.clearInstance).root = 0 := rfl
@[simp] theorem State.clearInstance_pkLen : (s.clearInstance).pkLen = 0 := rfl
@[simp] theorem State.clearInstance_pad : (s.clearInstance).pad = 0 := rfl
@[simp] theorem State.clearInstance_hdrLen : (s.clearInstance).hdrLen = 0 := rfl
@[simp] theorem State.clearInstance_ft : (s.clearInstance).ft = [] := rfl
@[simp] theorem State.clearInstance_node : (s.clearInstance).node = [] := rfl
@[simp] theorem State.clearInstance_pq : (s.clearInstance).pq = [] := rfl
@[simp] theorem State.clearInstance_ct : (s.clearInstance).ct = CodeTable.empty := rfl
@[simp] theorem State.clearInstance_bitbuf : (s.clearInstance).bitbuf = [] := rfl
@[simp] theorem State.clearInstance_pbuf : (s.clearInstance).pbuf = s.pbuf := rfl
@[simp] theorem State.clearInstance_ibuf : (s.clearInstance).ibuf = s.ibuf := rfl
@[simp] theorem State.clearInstance_obuf : (s.clearInstance).obuf = s.obuf := rfl
@[simp] theorem State.clearInstance_cfg : (s.clearInstance).cfg = s.cfg := rfl
@[simp] theorem State.clearInstance_epoch : (s.clearInstance).epoch = s.epoch := rfl
@[simp] theorem State.clearInstance_draws : (s.clearInstance).draws = s.draws := rfl
@[simp] theorem State.clearInstance_port : (s.clearInstance).port = s.port := rfl
@[simp] theorem State.clearInstance_resp : (s.clearInstance).resp = s.resp := rfl

/-! ### `leaveError` (R231) -/

@[simp] theorem State.leaveError_running : (s.leaveError).running = s.running := rfl
@[simp] theorem State.leaveError_done : (s.leaveError).done = s.done := rfl
@[simp] theorem State.leaveError_err : (s.leaveError).err = false := rfl
@[simp] theorem State.leaveError_treeValid : (s.leaveError).treeValid = s.treeValid := rfl
@[simp] theorem State.leaveError_ctValid : (s.leaveError).ctValid = s.ctValid := rfl
@[simp] theorem State.leaveError_ovr : (s.leaveError).ovr = false := rfl
@[simp] theorem State.leaveError_ie : (s.leaveError).ie = s.ie := rfl
@[simp] theorem State.leaveError_errCode : (s.leaveError).errCode = 0 := rfl
@[simp] theorem State.leaveError_errInfo : (s.leaveError).errInfo = 0 := rfl
@[simp] theorem State.leaveError_arg0 : (s.leaveError).arg0 = s.arg0 := rfl
@[simp] theorem State.leaveError_res0 : (s.leaveError).res0 = s.res0 := rfl
@[simp] theorem State.leaveError_res1 : (s.leaveError).res1 = s.res1 := rfl
@[simp] theorem State.leaveError_res2 : (s.leaveError).res2 = s.res2 := rfl
@[simp] theorem State.leaveError_inLen : (s.leaveError).inLen = s.inLen := rfl
@[simp] theorem State.leaveError_outLen : (s.leaveError).outLen = s.outLen := rfl
@[simp] theorem State.leaveError_root : (s.leaveError).root = s.root := rfl
@[simp] theorem State.leaveError_pkLen : (s.leaveError).pkLen = s.pkLen := rfl
@[simp] theorem State.leaveError_pad : (s.leaveError).pad = s.pad := rfl
@[simp] theorem State.leaveError_hdrLen : (s.leaveError).hdrLen = s.hdrLen := rfl
@[simp] theorem State.leaveError_ft : (s.leaveError).ft = s.ft := rfl
@[simp] theorem State.leaveError_node : (s.leaveError).node = s.node := rfl
@[simp] theorem State.leaveError_pq : (s.leaveError).pq = s.pq := rfl
@[simp] theorem State.leaveError_ct : (s.leaveError).ct = s.ct := rfl
@[simp] theorem State.leaveError_bitbuf : (s.leaveError).bitbuf = s.bitbuf := rfl
@[simp] theorem State.leaveError_pbuf : (s.leaveError).pbuf = s.pbuf := rfl
@[simp] theorem State.leaveError_ibuf : (s.leaveError).ibuf = s.ibuf := rfl
@[simp] theorem State.leaveError_obuf : (s.leaveError).obuf = s.obuf := rfl
@[simp] theorem State.leaveError_cfg : (s.leaveError).cfg = s.cfg := rfl
@[simp] theorem State.leaveError_epoch : (s.leaveError).epoch = s.epoch := rfl
@[simp] theorem State.leaveError_draws : (s.leaveError).draws = s.draws := rfl
@[simp] theorem State.leaveError_port : (s.leaveError).port = s.port := rfl
@[simp] theorem State.leaveError_resp : (s.leaveError).resp = s.resp := rfl

/-! ### `errorEntry` (R256) -/

@[simp] theorem State.errorEntry_running (e : CmdError) : (s.errorEntry e).running = none := rfl
@[simp] theorem State.errorEntry_done (e : CmdError) : (s.errorEntry e).done = false := rfl
@[simp] theorem State.errorEntry_err (e : CmdError) : (s.errorEntry e).err = true := rfl
@[simp] theorem State.errorEntry_treeValid (e : CmdError) : (s.errorEntry e).treeValid = false := rfl
@[simp] theorem State.errorEntry_ctValid (e : CmdError) : (s.errorEntry e).ctValid = false := rfl
@[simp] theorem State.errorEntry_ovr (e : CmdError) : (s.errorEntry e).ovr = s.ovr := rfl
@[simp] theorem State.errorEntry_ie (e : CmdError) : (s.errorEntry e).ie = s.ie := rfl
@[simp] theorem State.errorEntry_errCode (e : CmdError) : (s.errorEntry e).errCode = e.kind.code := rfl
@[simp] theorem State.errorEntry_errInfo (e : CmdError) : (s.errorEntry e).errInfo = BitVec.ofNat 32 e.info := rfl
@[simp] theorem State.errorEntry_arg0 (e : CmdError) : (s.errorEntry e).arg0 = s.arg0 := rfl
@[simp] theorem State.errorEntry_res0 (e : CmdError) : (s.errorEntry e).res0 = 0 := rfl
@[simp] theorem State.errorEntry_res1 (e : CmdError) : (s.errorEntry e).res1 = 0 := rfl
@[simp] theorem State.errorEntry_res2 (e : CmdError) : (s.errorEntry e).res2 = 0 := rfl
@[simp] theorem State.errorEntry_inLen (e : CmdError) : (s.errorEntry e).inLen = s.inLen := rfl
@[simp] theorem State.errorEntry_outLen (e : CmdError) : (s.errorEntry e).outLen = 0 := rfl
@[simp] theorem State.errorEntry_root (e : CmdError) : (s.errorEntry e).root = 0 := rfl
@[simp] theorem State.errorEntry_pkLen (e : CmdError) : (s.errorEntry e).pkLen = 0 := rfl
@[simp] theorem State.errorEntry_pad (e : CmdError) : (s.errorEntry e).pad = 0 := rfl
@[simp] theorem State.errorEntry_hdrLen (e : CmdError) : (s.errorEntry e).hdrLen = 0 := rfl
@[simp] theorem State.errorEntry_ft (e : CmdError) : (s.errorEntry e).ft = [] := rfl
@[simp] theorem State.errorEntry_node (e : CmdError) : (s.errorEntry e).node = [] := rfl
@[simp] theorem State.errorEntry_pq (e : CmdError) : (s.errorEntry e).pq = [] := rfl
@[simp] theorem State.errorEntry_ct (e : CmdError) : (s.errorEntry e).ct = CodeTable.empty := rfl
@[simp] theorem State.errorEntry_bitbuf (e : CmdError) : (s.errorEntry e).bitbuf = [] := rfl
@[simp] theorem State.errorEntry_pbuf (e : CmdError) : (s.errorEntry e).pbuf = s.pbuf := rfl
@[simp] theorem State.errorEntry_ibuf (e : CmdError) : (s.errorEntry e).ibuf = s.ibuf := rfl
@[simp] theorem State.errorEntry_obuf (e : CmdError) : (s.errorEntry e).obuf = s.obuf := rfl
@[simp] theorem State.errorEntry_cfg (e : CmdError) : (s.errorEntry e).cfg = s.cfg := rfl
@[simp] theorem State.errorEntry_epoch (e : CmdError) : (s.errorEntry e).epoch = s.epoch := rfl
@[simp] theorem State.errorEntry_draws (e : CmdError) : (s.errorEntry e).draws = s.draws := rfl
@[simp] theorem State.errorEntry_port (e : CmdError) : (s.errorEntry e).port = s.port := rfl
@[simp] theorem State.errorEntry_resp (e : CmdError) : (s.errorEntry e).resp = s.resp := rfl

/-! ### `invalidate` (R29) -/

@[simp] theorem State.invalidate_running : (s.invalidate).running = s.running := rfl
@[simp] theorem State.invalidate_done : (s.invalidate).done = s.done := rfl
@[simp] theorem State.invalidate_err : (s.invalidate).err = s.err := rfl
@[simp] theorem State.invalidate_treeValid : (s.invalidate).treeValid = false := rfl
@[simp] theorem State.invalidate_ctValid : (s.invalidate).ctValid = false := rfl
@[simp] theorem State.invalidate_ovr : (s.invalidate).ovr = s.ovr := rfl
@[simp] theorem State.invalidate_ie : (s.invalidate).ie = s.ie := rfl
@[simp] theorem State.invalidate_errCode : (s.invalidate).errCode = s.errCode := rfl
@[simp] theorem State.invalidate_errInfo : (s.invalidate).errInfo = s.errInfo := rfl
@[simp] theorem State.invalidate_arg0 : (s.invalidate).arg0 = s.arg0 := rfl
@[simp] theorem State.invalidate_res0 : (s.invalidate).res0 = s.res0 := rfl
@[simp] theorem State.invalidate_res1 : (s.invalidate).res1 = s.res1 := rfl
@[simp] theorem State.invalidate_res2 : (s.invalidate).res2 = s.res2 := rfl
@[simp] theorem State.invalidate_inLen : (s.invalidate).inLen = s.inLen := rfl
@[simp] theorem State.invalidate_outLen : (s.invalidate).outLen = s.outLen := rfl
@[simp] theorem State.invalidate_root : (s.invalidate).root = s.root := rfl
@[simp] theorem State.invalidate_pkLen : (s.invalidate).pkLen = s.pkLen := rfl
@[simp] theorem State.invalidate_pad : (s.invalidate).pad = s.pad := rfl
@[simp] theorem State.invalidate_hdrLen : (s.invalidate).hdrLen = s.hdrLen := rfl
@[simp] theorem State.invalidate_ft : (s.invalidate).ft = s.ft := rfl
@[simp] theorem State.invalidate_node : (s.invalidate).node = s.node := rfl
@[simp] theorem State.invalidate_pq : (s.invalidate).pq = s.pq := rfl
@[simp] theorem State.invalidate_ct : (s.invalidate).ct = s.ct := rfl
@[simp] theorem State.invalidate_bitbuf : (s.invalidate).bitbuf = s.bitbuf := rfl
@[simp] theorem State.invalidate_pbuf : (s.invalidate).pbuf = s.pbuf := rfl
@[simp] theorem State.invalidate_ibuf : (s.invalidate).ibuf = s.ibuf := rfl
@[simp] theorem State.invalidate_obuf : (s.invalidate).obuf = s.obuf := rfl
@[simp] theorem State.invalidate_cfg : (s.invalidate).cfg = s.cfg := rfl
@[simp] theorem State.invalidate_epoch : (s.invalidate).epoch = s.epoch := rfl
@[simp] theorem State.invalidate_draws : (s.invalidate).draws = s.draws := rfl
@[simp] theorem State.invalidate_port : (s.invalidate).port = s.port := rfl
@[simp] theorem State.invalidate_resp : (s.invalidate).resp = s.resp := rfl

/-! ### `writeOutput` (R203, R222) -/

@[simp] theorem State.writeOutput_running (out : List Byte) : (s.writeOutput out).running = s.running := rfl
@[simp] theorem State.writeOutput_done (out : List Byte) : (s.writeOutput out).done = s.done := rfl
@[simp] theorem State.writeOutput_err (out : List Byte) : (s.writeOutput out).err = s.err := rfl
@[simp] theorem State.writeOutput_treeValid (out : List Byte) : (s.writeOutput out).treeValid = s.treeValid := rfl
@[simp] theorem State.writeOutput_ctValid (out : List Byte) : (s.writeOutput out).ctValid = s.ctValid := rfl
@[simp] theorem State.writeOutput_ovr (out : List Byte) : (s.writeOutput out).ovr = s.ovr := rfl
@[simp] theorem State.writeOutput_ie (out : List Byte) : (s.writeOutput out).ie = s.ie := rfl
@[simp] theorem State.writeOutput_errCode (out : List Byte) : (s.writeOutput out).errCode = s.errCode := rfl
@[simp] theorem State.writeOutput_errInfo (out : List Byte) : (s.writeOutput out).errInfo = s.errInfo := rfl
@[simp] theorem State.writeOutput_arg0 (out : List Byte) : (s.writeOutput out).arg0 = s.arg0 := rfl
@[simp] theorem State.writeOutput_res0 (out : List Byte) : (s.writeOutput out).res0 = s.res0 := rfl
@[simp] theorem State.writeOutput_res1 (out : List Byte) : (s.writeOutput out).res1 = s.res1 := rfl
@[simp] theorem State.writeOutput_res2 (out : List Byte) : (s.writeOutput out).res2 = s.res2 := rfl
@[simp] theorem State.writeOutput_inLen (out : List Byte) : (s.writeOutput out).inLen = s.inLen := rfl
@[simp] theorem State.writeOutput_outLen (out : List Byte) : (s.writeOutput out).outLen = out.length := rfl
@[simp] theorem State.writeOutput_root (out : List Byte) : (s.writeOutput out).root = s.root := rfl
@[simp] theorem State.writeOutput_pkLen (out : List Byte) : (s.writeOutput out).pkLen = s.pkLen := rfl
@[simp] theorem State.writeOutput_pad (out : List Byte) : (s.writeOutput out).pad = s.pad := rfl
@[simp] theorem State.writeOutput_hdrLen (out : List Byte) : (s.writeOutput out).hdrLen = s.hdrLen := rfl
@[simp] theorem State.writeOutput_ft (out : List Byte) : (s.writeOutput out).ft = s.ft := rfl
@[simp] theorem State.writeOutput_node (out : List Byte) : (s.writeOutput out).node = s.node := rfl
@[simp] theorem State.writeOutput_pq (out : List Byte) : (s.writeOutput out).pq = s.pq := rfl
@[simp] theorem State.writeOutput_ct (out : List Byte) : (s.writeOutput out).ct = s.ct := rfl
@[simp] theorem State.writeOutput_bitbuf (out : List Byte) : (s.writeOutput out).bitbuf = s.bitbuf := rfl
@[simp] theorem State.writeOutput_pbuf (out : List Byte) : (s.writeOutput out).pbuf = s.pbuf := rfl
@[simp] theorem State.writeOutput_ibuf (out : List Byte) : (s.writeOutput out).ibuf = s.ibuf := rfl
@[simp] theorem State.writeOutput_obuf (out : List Byte) : (s.writeOutput out).obuf = Memory.writeList s.obuf 0 out := rfl
@[simp] theorem State.writeOutput_cfg (out : List Byte) : (s.writeOutput out).cfg = s.cfg := rfl
@[simp] theorem State.writeOutput_epoch (out : List Byte) : (s.writeOutput out).epoch = s.epoch := rfl
@[simp] theorem State.writeOutput_draws (out : List Byte) : (s.writeOutput out).draws = s.draws := rfl
@[simp] theorem State.writeOutput_port (out : List Byte) : (s.writeOutput out).port = s.port := rfl
@[simp] theorem State.writeOutput_resp (out : List Byte) : (s.writeOutput out).resp = s.resp := rfl

/-! ### `writePayload` (R184, R206) -/

@[simp] theorem State.writePayload_running (bs : List Byte) : (s.writePayload bs).running = s.running := rfl
@[simp] theorem State.writePayload_done (bs : List Byte) : (s.writePayload bs).done = s.done := rfl
@[simp] theorem State.writePayload_err (bs : List Byte) : (s.writePayload bs).err = s.err := rfl
@[simp] theorem State.writePayload_treeValid (bs : List Byte) : (s.writePayload bs).treeValid = s.treeValid := rfl
@[simp] theorem State.writePayload_ctValid (bs : List Byte) : (s.writePayload bs).ctValid = s.ctValid := rfl
@[simp] theorem State.writePayload_ovr (bs : List Byte) : (s.writePayload bs).ovr = s.ovr := rfl
@[simp] theorem State.writePayload_ie (bs : List Byte) : (s.writePayload bs).ie = s.ie := rfl
@[simp] theorem State.writePayload_errCode (bs : List Byte) : (s.writePayload bs).errCode = s.errCode := rfl
@[simp] theorem State.writePayload_errInfo (bs : List Byte) : (s.writePayload bs).errInfo = s.errInfo := rfl
@[simp] theorem State.writePayload_arg0 (bs : List Byte) : (s.writePayload bs).arg0 = s.arg0 := rfl
@[simp] theorem State.writePayload_res0 (bs : List Byte) : (s.writePayload bs).res0 = s.res0 := rfl
@[simp] theorem State.writePayload_res1 (bs : List Byte) : (s.writePayload bs).res1 = s.res1 := rfl
@[simp] theorem State.writePayload_res2 (bs : List Byte) : (s.writePayload bs).res2 = s.res2 := rfl
@[simp] theorem State.writePayload_inLen (bs : List Byte) : (s.writePayload bs).inLen = s.inLen := rfl
@[simp] theorem State.writePayload_outLen (bs : List Byte) : (s.writePayload bs).outLen = s.outLen := rfl
@[simp] theorem State.writePayload_root (bs : List Byte) : (s.writePayload bs).root = s.root := rfl
@[simp] theorem State.writePayload_pkLen (bs : List Byte) : (s.writePayload bs).pkLen = bs.length := rfl
@[simp] theorem State.writePayload_pad (bs : List Byte) : (s.writePayload bs).pad = s.pad := rfl
@[simp] theorem State.writePayload_hdrLen (bs : List Byte) : (s.writePayload bs).hdrLen = s.hdrLen := rfl
@[simp] theorem State.writePayload_ft (bs : List Byte) : (s.writePayload bs).ft = s.ft := rfl
@[simp] theorem State.writePayload_node (bs : List Byte) : (s.writePayload bs).node = s.node := rfl
@[simp] theorem State.writePayload_pq (bs : List Byte) : (s.writePayload bs).pq = s.pq := rfl
@[simp] theorem State.writePayload_ct (bs : List Byte) : (s.writePayload bs).ct = s.ct := rfl
@[simp] theorem State.writePayload_bitbuf (bs : List Byte) : (s.writePayload bs).bitbuf = s.bitbuf := rfl
@[simp] theorem State.writePayload_pbuf (bs : List Byte) : (s.writePayload bs).pbuf = Memory.writeList s.pbuf 0 bs := rfl
@[simp] theorem State.writePayload_ibuf (bs : List Byte) : (s.writePayload bs).ibuf = s.ibuf := rfl
@[simp] theorem State.writePayload_obuf (bs : List Byte) : (s.writePayload bs).obuf = s.obuf := rfl
@[simp] theorem State.writePayload_cfg (bs : List Byte) : (s.writePayload bs).cfg = s.cfg := rfl
@[simp] theorem State.writePayload_epoch (bs : List Byte) : (s.writePayload bs).epoch = s.epoch := rfl
@[simp] theorem State.writePayload_draws (bs : List Byte) : (s.writePayload bs).draws = s.draws := rfl
@[simp] theorem State.writePayload_port (bs : List Byte) : (s.writePayload bs).port = s.port := rfl
@[simp] theorem State.writePayload_resp (bs : List Byte) : (s.writePayload bs).resp = s.resp := rfl

/-! ### `commitParse` (R206) -/

@[simp] theorem State.commitParse_running (p : Parsed) : (s.commitParse p).running = s.running := rfl
@[simp] theorem State.commitParse_done (p : Parsed) : (s.commitParse p).done = s.done := rfl
@[simp] theorem State.commitParse_err (p : Parsed) : (s.commitParse p).err = s.err := rfl
@[simp] theorem State.commitParse_treeValid (p : Parsed) : (s.commitParse p).treeValid = s.treeValid := rfl
@[simp] theorem State.commitParse_ctValid (p : Parsed) : (s.commitParse p).ctValid = s.ctValid := rfl
@[simp] theorem State.commitParse_ovr (p : Parsed) : (s.commitParse p).ovr = s.ovr := rfl
@[simp] theorem State.commitParse_ie (p : Parsed) : (s.commitParse p).ie = s.ie := rfl
@[simp] theorem State.commitParse_errCode (p : Parsed) : (s.commitParse p).errCode = s.errCode := rfl
@[simp] theorem State.commitParse_errInfo (p : Parsed) : (s.commitParse p).errInfo = s.errInfo := rfl
@[simp] theorem State.commitParse_arg0 (p : Parsed) : (s.commitParse p).arg0 = s.arg0 := rfl
@[simp] theorem State.commitParse_res0 (p : Parsed) : (s.commitParse p).res0 = s.res0 := rfl
@[simp] theorem State.commitParse_res1 (p : Parsed) : (s.commitParse p).res1 = s.res1 := rfl
@[simp] theorem State.commitParse_res2 (p : Parsed) : (s.commitParse p).res2 = s.res2 := rfl
@[simp] theorem State.commitParse_inLen (p : Parsed) : (s.commitParse p).inLen = s.inLen := rfl
@[simp] theorem State.commitParse_outLen (p : Parsed) : (s.commitParse p).outLen = s.outLen := rfl
@[simp] theorem State.commitParse_root (p : Parsed) : (s.commitParse p).root = s.root := rfl
@[simp] theorem State.commitParse_pkLen (p : Parsed) : (s.commitParse p).pkLen = p.payload.length := rfl
@[simp] theorem State.commitParse_pad (p : Parsed) : (s.commitParse p).pad = p.pad := rfl
@[simp] theorem State.commitParse_hdrLen (p : Parsed) : (s.commitParse p).hdrLen = p.hdrLen := rfl
@[simp] theorem State.commitParse_ft (p : Parsed) : (s.commitParse p).ft = p.table := rfl
@[simp] theorem State.commitParse_node (p : Parsed) : (s.commitParse p).node = s.node := rfl
@[simp] theorem State.commitParse_pq (p : Parsed) : (s.commitParse p).pq = s.pq := rfl
@[simp] theorem State.commitParse_ct (p : Parsed) : (s.commitParse p).ct = s.ct := rfl
@[simp] theorem State.commitParse_bitbuf (p : Parsed) : (s.commitParse p).bitbuf = s.bitbuf := rfl
@[simp] theorem State.commitParse_pbuf (p : Parsed) : (s.commitParse p).pbuf = Memory.writeList s.pbuf 0 p.payload := rfl
@[simp] theorem State.commitParse_ibuf (p : Parsed) : (s.commitParse p).ibuf = s.ibuf := rfl
@[simp] theorem State.commitParse_obuf (p : Parsed) : (s.commitParse p).obuf = s.obuf := rfl
@[simp] theorem State.commitParse_cfg (p : Parsed) : (s.commitParse p).cfg = s.cfg := rfl
@[simp] theorem State.commitParse_epoch (p : Parsed) : (s.commitParse p).epoch = s.epoch := rfl
@[simp] theorem State.commitParse_draws (p : Parsed) : (s.commitParse p).draws = s.draws := rfl
@[simp] theorem State.commitParse_port (p : Parsed) : (s.commitParse p).port = s.port := rfl
@[simp] theorem State.commitParse_resp (p : Parsed) : (s.commitParse p).resp = s.resp := rfl

/-! ### `allocate` (R152) -/

@[simp] theorem State.allocate_running (n : Node) : (s.allocate n).running = s.running := rfl
@[simp] theorem State.allocate_done (n : Node) : (s.allocate n).done = s.done := rfl
@[simp] theorem State.allocate_err (n : Node) : (s.allocate n).err = s.err := rfl
@[simp] theorem State.allocate_treeValid (n : Node) : (s.allocate n).treeValid = s.treeValid := rfl
@[simp] theorem State.allocate_ctValid (n : Node) : (s.allocate n).ctValid = s.ctValid := rfl
@[simp] theorem State.allocate_ovr (n : Node) : (s.allocate n).ovr = s.ovr := rfl
@[simp] theorem State.allocate_ie (n : Node) : (s.allocate n).ie = s.ie := rfl
@[simp] theorem State.allocate_errCode (n : Node) : (s.allocate n).errCode = s.errCode := rfl
@[simp] theorem State.allocate_errInfo (n : Node) : (s.allocate n).errInfo = s.errInfo := rfl
@[simp] theorem State.allocate_arg0 (n : Node) : (s.allocate n).arg0 = s.arg0 := rfl
@[simp] theorem State.allocate_res0 (n : Node) : (s.allocate n).res0 = BitVec.ofNat 32 s.node.length := rfl
@[simp] theorem State.allocate_res1 (n : Node) : (s.allocate n).res1 = s.res1 := rfl
@[simp] theorem State.allocate_res2 (n : Node) : (s.allocate n).res2 = s.res2 := rfl
@[simp] theorem State.allocate_inLen (n : Node) : (s.allocate n).inLen = s.inLen := rfl
@[simp] theorem State.allocate_outLen (n : Node) : (s.allocate n).outLen = s.outLen := rfl
@[simp] theorem State.allocate_root (n : Node) : (s.allocate n).root = s.root := rfl
@[simp] theorem State.allocate_pkLen (n : Node) : (s.allocate n).pkLen = s.pkLen := rfl
@[simp] theorem State.allocate_pad (n : Node) : (s.allocate n).pad = s.pad := rfl
@[simp] theorem State.allocate_hdrLen (n : Node) : (s.allocate n).hdrLen = s.hdrLen := rfl
@[simp] theorem State.allocate_ft (n : Node) : (s.allocate n).ft = s.ft := rfl
@[simp] theorem State.allocate_node (n : Node) : (s.allocate n).node = s.node ++ [n] := rfl
@[simp] theorem State.allocate_pq (n : Node) : (s.allocate n).pq = s.pq := rfl
@[simp] theorem State.allocate_ct (n : Node) : (s.allocate n).ct = s.ct := rfl
@[simp] theorem State.allocate_bitbuf (n : Node) : (s.allocate n).bitbuf = s.bitbuf := rfl
@[simp] theorem State.allocate_pbuf (n : Node) : (s.allocate n).pbuf = s.pbuf := rfl
@[simp] theorem State.allocate_ibuf (n : Node) : (s.allocate n).ibuf = s.ibuf := rfl
@[simp] theorem State.allocate_obuf (n : Node) : (s.allocate n).obuf = s.obuf := rfl
@[simp] theorem State.allocate_cfg (n : Node) : (s.allocate n).cfg = s.cfg := rfl
@[simp] theorem State.allocate_epoch (n : Node) : (s.allocate n).epoch = s.epoch := rfl
@[simp] theorem State.allocate_draws (n : Node) : (s.allocate n).draws = s.draws := rfl
@[simp] theorem State.allocate_port (n : Node) : (s.allocate n).port = s.port := rfl
@[simp] theorem State.allocate_resp (n : Node) : (s.allocate n).resp = s.resp := rfl

/-! ### `writeCtrl` (R31) -/

@[simp] theorem State.writeCtrl_running (v : Word) : (s.writeCtrl v).running = s.running := rfl
@[simp] theorem State.writeCtrl_done (v : Word) : (s.writeCtrl v).done = s.done := rfl
@[simp] theorem State.writeCtrl_err (v : Word) : (s.writeCtrl v).err = s.err := rfl
@[simp] theorem State.writeCtrl_treeValid (v : Word) : (s.writeCtrl v).treeValid = s.treeValid := rfl
@[simp] theorem State.writeCtrl_ctValid (v : Word) : (s.writeCtrl v).ctValid = s.ctValid := rfl
@[simp] theorem State.writeCtrl_ovr (v : Word) : (s.writeCtrl v).ovr = s.ovr := rfl
@[simp] theorem State.writeCtrl_ie (v : Word) : (s.writeCtrl v).ie = v.getLsbD 0 := rfl
@[simp] theorem State.writeCtrl_errCode (v : Word) : (s.writeCtrl v).errCode = s.errCode := rfl
@[simp] theorem State.writeCtrl_errInfo (v : Word) : (s.writeCtrl v).errInfo = s.errInfo := rfl
@[simp] theorem State.writeCtrl_arg0 (v : Word) : (s.writeCtrl v).arg0 = s.arg0 := rfl
@[simp] theorem State.writeCtrl_res0 (v : Word) : (s.writeCtrl v).res0 = s.res0 := rfl
@[simp] theorem State.writeCtrl_res1 (v : Word) : (s.writeCtrl v).res1 = s.res1 := rfl
@[simp] theorem State.writeCtrl_res2 (v : Word) : (s.writeCtrl v).res2 = s.res2 := rfl
@[simp] theorem State.writeCtrl_inLen (v : Word) : (s.writeCtrl v).inLen = s.inLen := rfl
@[simp] theorem State.writeCtrl_outLen (v : Word) : (s.writeCtrl v).outLen = s.outLen := rfl
@[simp] theorem State.writeCtrl_root (v : Word) : (s.writeCtrl v).root = s.root := rfl
@[simp] theorem State.writeCtrl_pkLen (v : Word) : (s.writeCtrl v).pkLen = s.pkLen := rfl
@[simp] theorem State.writeCtrl_pad (v : Word) : (s.writeCtrl v).pad = s.pad := rfl
@[simp] theorem State.writeCtrl_hdrLen (v : Word) : (s.writeCtrl v).hdrLen = s.hdrLen := rfl
@[simp] theorem State.writeCtrl_ft (v : Word) : (s.writeCtrl v).ft = s.ft := rfl
@[simp] theorem State.writeCtrl_node (v : Word) : (s.writeCtrl v).node = s.node := rfl
@[simp] theorem State.writeCtrl_pq (v : Word) : (s.writeCtrl v).pq = s.pq := rfl
@[simp] theorem State.writeCtrl_ct (v : Word) : (s.writeCtrl v).ct = s.ct := rfl
@[simp] theorem State.writeCtrl_bitbuf (v : Word) : (s.writeCtrl v).bitbuf = s.bitbuf := rfl
@[simp] theorem State.writeCtrl_pbuf (v : Word) : (s.writeCtrl v).pbuf = s.pbuf := rfl
@[simp] theorem State.writeCtrl_ibuf (v : Word) : (s.writeCtrl v).ibuf = s.ibuf := rfl
@[simp] theorem State.writeCtrl_obuf (v : Word) : (s.writeCtrl v).obuf = s.obuf := rfl
@[simp] theorem State.writeCtrl_cfg (v : Word) : (s.writeCtrl v).cfg = s.cfg := rfl
@[simp] theorem State.writeCtrl_epoch (v : Word) : (s.writeCtrl v).epoch = s.epoch := rfl
@[simp] theorem State.writeCtrl_draws (v : Word) : (s.writeCtrl v).draws = s.draws := rfl
@[simp] theorem State.writeCtrl_port (v : Word) : (s.writeCtrl v).port = s.port := rfl
@[simp] theorem State.writeCtrl_resp (v : Word) : (s.writeCtrl v).resp = s.resp := rfl

/-! ### `answer` (R69 to R71) -/

@[simp] theorem State.answer_running (r : PortResp) : (s.answer r).running = s.running := rfl
@[simp] theorem State.answer_done (r : PortResp) : (s.answer r).done = s.done := rfl
@[simp] theorem State.answer_err (r : PortResp) : (s.answer r).err = s.err := rfl
@[simp] theorem State.answer_treeValid (r : PortResp) : (s.answer r).treeValid = s.treeValid := rfl
@[simp] theorem State.answer_ctValid (r : PortResp) : (s.answer r).ctValid = s.ctValid := rfl
@[simp] theorem State.answer_ovr (r : PortResp) : (s.answer r).ovr = s.ovr := rfl
@[simp] theorem State.answer_ie (r : PortResp) : (s.answer r).ie = s.ie := rfl
@[simp] theorem State.answer_errCode (r : PortResp) : (s.answer r).errCode = s.errCode := rfl
@[simp] theorem State.answer_errInfo (r : PortResp) : (s.answer r).errInfo = s.errInfo := rfl
@[simp] theorem State.answer_arg0 (r : PortResp) : (s.answer r).arg0 = s.arg0 := rfl
@[simp] theorem State.answer_res0 (r : PortResp) : (s.answer r).res0 = s.res0 := rfl
@[simp] theorem State.answer_res1 (r : PortResp) : (s.answer r).res1 = s.res1 := rfl
@[simp] theorem State.answer_res2 (r : PortResp) : (s.answer r).res2 = s.res2 := rfl
@[simp] theorem State.answer_inLen (r : PortResp) : (s.answer r).inLen = s.inLen := rfl
@[simp] theorem State.answer_outLen (r : PortResp) : (s.answer r).outLen = s.outLen := rfl
@[simp] theorem State.answer_root (r : PortResp) : (s.answer r).root = s.root := rfl
@[simp] theorem State.answer_pkLen (r : PortResp) : (s.answer r).pkLen = s.pkLen := rfl
@[simp] theorem State.answer_pad (r : PortResp) : (s.answer r).pad = s.pad := rfl
@[simp] theorem State.answer_hdrLen (r : PortResp) : (s.answer r).hdrLen = s.hdrLen := rfl
@[simp] theorem State.answer_ft (r : PortResp) : (s.answer r).ft = s.ft := rfl
@[simp] theorem State.answer_node (r : PortResp) : (s.answer r).node = s.node := rfl
@[simp] theorem State.answer_pq (r : PortResp) : (s.answer r).pq = s.pq := rfl
@[simp] theorem State.answer_ct (r : PortResp) : (s.answer r).ct = s.ct := rfl
@[simp] theorem State.answer_bitbuf (r : PortResp) : (s.answer r).bitbuf = s.bitbuf := rfl
@[simp] theorem State.answer_pbuf (r : PortResp) : (s.answer r).pbuf = s.pbuf := rfl
@[simp] theorem State.answer_ibuf (r : PortResp) : (s.answer r).ibuf = s.ibuf := rfl
@[simp] theorem State.answer_obuf (r : PortResp) : (s.answer r).obuf = s.obuf := rfl
@[simp] theorem State.answer_cfg (r : PortResp) : (s.answer r).cfg = s.cfg := rfl
@[simp] theorem State.answer_epoch (r : PortResp) : (s.answer r).epoch = s.epoch := rfl
@[simp] theorem State.answer_draws (r : PortResp) : (s.answer r).draws = s.draws := rfl
@[simp] theorem State.answer_port (r : PortResp) : (s.answer r).port = s.port := rfl
@[simp] theorem State.answer_resp (r : PortResp) : (s.answer r).resp = some r := rfl

/-! ### `draw` (U9, U10, U11) -/

@[simp] theorem State.draw_running : (s.draw).running = s.running := rfl
@[simp] theorem State.draw_done : (s.draw).done = s.done := rfl
@[simp] theorem State.draw_err : (s.draw).err = s.err := rfl
@[simp] theorem State.draw_treeValid : (s.draw).treeValid = s.treeValid := rfl
@[simp] theorem State.draw_ctValid : (s.draw).ctValid = s.ctValid := rfl
@[simp] theorem State.draw_ovr : (s.draw).ovr = s.ovr := rfl
@[simp] theorem State.draw_ie : (s.draw).ie = s.ie := rfl
@[simp] theorem State.draw_errCode : (s.draw).errCode = s.errCode := rfl
@[simp] theorem State.draw_errInfo : (s.draw).errInfo = s.errInfo := rfl
@[simp] theorem State.draw_arg0 : (s.draw).arg0 = s.arg0 := rfl
@[simp] theorem State.draw_res0 : (s.draw).res0 = s.res0 := rfl
@[simp] theorem State.draw_res1 : (s.draw).res1 = s.res1 := rfl
@[simp] theorem State.draw_res2 : (s.draw).res2 = s.res2 := rfl
@[simp] theorem State.draw_inLen : (s.draw).inLen = s.inLen := rfl
@[simp] theorem State.draw_outLen : (s.draw).outLen = s.outLen := rfl
@[simp] theorem State.draw_root : (s.draw).root = s.root := rfl
@[simp] theorem State.draw_pkLen : (s.draw).pkLen = s.pkLen := rfl
@[simp] theorem State.draw_pad : (s.draw).pad = s.pad := rfl
@[simp] theorem State.draw_hdrLen : (s.draw).hdrLen = s.hdrLen := rfl
@[simp] theorem State.draw_ft : (s.draw).ft = s.ft := rfl
@[simp] theorem State.draw_node : (s.draw).node = s.node := rfl
@[simp] theorem State.draw_pq : (s.draw).pq = s.pq := rfl
@[simp] theorem State.draw_ct : (s.draw).ct = s.ct := rfl
@[simp] theorem State.draw_bitbuf : (s.draw).bitbuf = s.bitbuf := rfl
@[simp] theorem State.draw_pbuf : (s.draw).pbuf = s.pbuf := rfl
@[simp] theorem State.draw_ibuf : (s.draw).ibuf = s.ibuf := rfl
@[simp] theorem State.draw_obuf : (s.draw).obuf = s.obuf := rfl
@[simp] theorem State.draw_cfg : (s.draw).cfg = s.cfg := rfl
@[simp] theorem State.draw_epoch : (s.draw).epoch = s.epoch := rfl
@[simp] theorem State.draw_draws : (s.draw).draws = s.draws + 1 := rfl
@[simp] theorem State.draw_port : (s.draw).port = s.port := rfl
@[simp] theorem State.draw_resp : (s.draw).resp = s.resp := rfl

/-! ### The reset event (R280, R50) -/

theorem State.resetEvent_eq :
    s.resetEvent = { State.reset with cfg := s.cfg, epoch := s.epoch + 1, draws := s.draws, port := s.port } := rfl

/-- The error entry is R256 with R51 written out. -/
theorem State.errorEntry_eq (e : CmdError) :
    s.errorEntry e = { s.clearInstance with
      err := true, done := false, running := none, errCode := e.kind.code, errInfo := BitVec.ofNat 32 e.info } := rfl

/-- Clearing twice is clearing once (R51). -/
@[simp] theorem State.clearInstance_clearInstance : s.clearInstance.clearInstance = s.clearInstance := rfl

end Sys2Proof.Machine
end

