-- ==== Sys2Proof/Laws/Ops.lean ====
section
/-! SUPPORT. What a command and the shared operations can do, said once: every arm of exec finishes the pseudocode of its command,
so it answers a next state that is either the completed result of the pseudocode or the error entry. -/

namespace Sys2Proof.Machine

/-- The pseudocode of a command, without its completion. -/
def commandBody : Instr → State → Except CmdError State
  | .nop, s => .ok s
  | .clr, s => clrBody s
  | .ftBuild, s => ftBuildBody s
  | .ndLeaf x, s => ndLeafBody x s
  | .ndJoin a b, s => ndJoinBody a b s
  | .trSet a, s => trSetBody a s
  | .pqEnq a, s => pqEnqBody a s
  | .pqDeq, s => pqDeqBody s
  | .pqSize, s => pqSizeBody s
  | .pqEmpty, s => pqEmptyBody s
  | .tbBuild, s => tbBuildBody s
  | .cgGen, s => cgGenBody s
  | .bsAsm, s => bsAsmBody s
  | .bpPack, s => bpPackBody s
  | .bpUnpack, s => bpUnpackBody s
  | .ccEncode, s => ccEncodeBody s
  | .ccParse, s => ccParseBody s
  | .bdDecode, s => bdDecodeBody s
  | .compress, s => compressBody s
  | .decompress, s => decompressBody s

/-- exec finishes the pseudocode of the command. -/
theorem exec_eq_finish (i : Instr) (s : State) : exec i s = finish s (commandBody i s) := by cases i <;> rfl

@[simp] theorem finish_ok (s t : State) : finish s (.ok t) = .next t.complete := rfl

@[simp] theorem finish_error (s : State) (e : CmdError) : finish s (.error e) = .next (s.errorEntry e) := rfl

/-- Everything `finish` can answer. -/
theorem finish_next {s t : State} {r : Except CmdError State} (h : finish s r = .next t) :
    (∃ u, r = .ok u ∧ t = u.complete) ∨ (∃ e, r = .error e ∧ t = s.errorEntry e) := by
  cases r with
  | ok u => exact .inl ⟨u, rfl, by simpa using h.symm⟩
  | error e => exact .inr ⟨e, rfl, by simpa using h.symm⟩

/-- Everything a command can do: its pseudocode succeeds and it completes, or its pseudocode raises an error and the error entry
follows. -/
theorem exec_cases {i : Instr} {s t : State} (h : exec i s = .next t) :
    (∃ u, commandBody i s = .ok u ∧ t = u.complete) ∨ (∃ e, commandBody i s = .error e ∧ t = s.errorEntry e) :=
  finish_next (exec_eq_finish i s ▸ h)

/-- A list of stages succeeds when the first does and the rest does on what it left (R233, R235). -/
theorem runStages_cons_ok {f : State → Except CmdError State} {fs : List (State → Except CmdError State)} {s u : State} :
    runStages (f :: fs) s = .ok u ↔ ∃ t, f s = .ok t ∧ runStages fs t = .ok u := by
  simp only [runStages]
  cases f s with
  | ok t => simp
  | error e => simp

/-- A list of stages fails with the error of the first stage that does (R233, R264). -/
theorem runStages_cons_error {f : State → Except CmdError State} {fs : List (State → Except CmdError State)} {s : State}
    {e : CmdError} :
    runStages (f :: fs) s = .error e ↔ f s = .error e ∨ ∃ t, f s = .ok t ∧ runStages fs t = .error e := by
  simp only [runStages]
  cases f s with
  | ok t => simp
  | error e' => simp

/-- A dequeue takes the head (R140). -/
theorem pqRemoveHead_eq_some {q q' : List PqEntry} {e : PqEntry} : pqRemoveHead q = some (e, q') ↔ q = e :: q' := by
  cases q with
  | nil => simp [pqRemoveHead]
  | cons f q => simp [pqRemoveHead]

/-- An enqueue adds one entry (R140). -/
theorem length_pqInsert (q : List PqEntry) (e : PqEntry) : (pqInsert q e).length = q.length + 1 := by
  have h := List.countP_le_length (p := fun x : PqEntry => decide (x.weight ≤ e.weight)) (l := q)
  simp only [pqInsert, List.length_append, List.length_cons, List.length_take, List.length_drop]
  omega

/-- The entries after an enqueue are the new one and the old ones. -/
theorem mem_pqInsert {q : List PqEntry} {e x : PqEntry} : x ∈ pqInsert q e ↔ x = e ∨ x ∈ q := by
  simp only [pqInsert, List.mem_append, List.mem_cons]
  constructor
  · rintro (h | h | h)
    · exact .inr (List.mem_of_mem_take h)
    · exact .inl h
    · exact .inr (List.mem_of_mem_drop h)
  · rintro (h | h)
    · exact .inr (.inl h)
    · rcases List.mem_append.1 ((List.take_append_drop _ q).symm ▸ h) with h | h
      · exact .inl h
      · exact .inr (.inr h)

@[simp] theorem CodeTable.get_empty (x : Byte) : CodeTable.empty.get x = none := by
  simp [CodeTable.get, CodeTable.empty]

/-- What an assignment leaves in each entry of the code table (R45). -/
theorem CodeTable.get_assign (ct : CodeTable) (x y : Byte) (c : Bits) :
    (ct.assign x c).get y = if y = x then some c else ct.get y := by
  simp only [CodeTable.get, CodeTable.assign, Vector.getElem_set, BitVec.toNat_inj, eq_comm]

@[simp] theorem length_bits8 (b : Byte) : (bits8 b).length = 8 := by simp [bits8]

end Sys2Proof.Machine
end

