-- ==== Sys2Proof/Laws/PerInstr.lean ====
section
/-! SUPPORT. Statements for all instructions as syntax, one lemma per constructor. Family OpcodeField: the low byte of an
instruction's word is its opcode (R91, R93), whatever its operands. -/

namespace Sys2Proof.Laws.OpcodeField

/-- Field OP of the encoded word is the opcode of the row. -/
def Statement (i : Instr) : Prop := fieldOp (encode i) = i.opcode.code

/-- The low byte of a word built from an opcode and fields above bit 7 is the opcode. -/
theorem fieldOp_ofNat (c : Byte) (a b : Nat) : fieldOp (BitVec.ofNat 32 (c.toNat + a * 2 ^ 8 + b * 2 ^ 17)) = c := by
  apply BitVec.eq_of_toNat_eq
  have := c.isLt
  simp only [fieldOp, BitVec.extractLsb'_toNat, BitVec.toNat_ofNat, Nat.shiftRight_zero]
  omega

theorem nop : Statement .nop := fieldOp_ofNat _ _ _
theorem clr : Statement .clr := fieldOp_ofNat _ _ _
theorem ftBuild : Statement .ftBuild := fieldOp_ofNat _ _ _
theorem ndLeaf (sym : Byte) : Statement (.ndLeaf sym) := fieldOp_ofNat _ _ _
theorem ndJoin (a b : Nat) : Statement (.ndJoin a b) := fieldOp_ofNat _ _ _
theorem trSet (a : Nat) : Statement (.trSet a) := fieldOp_ofNat _ _ _
theorem pqEnq (a : Nat) : Statement (.pqEnq a) := fieldOp_ofNat _ _ _
theorem pqDeq : Statement .pqDeq := fieldOp_ofNat _ _ _
theorem pqSize : Statement .pqSize := fieldOp_ofNat _ _ _
theorem pqEmpty : Statement .pqEmpty := fieldOp_ofNat _ _ _
theorem tbBuild : Statement .tbBuild := fieldOp_ofNat _ _ _
theorem cgGen : Statement .cgGen := fieldOp_ofNat _ _ _
theorem bsAsm : Statement .bsAsm := fieldOp_ofNat _ _ _
theorem bpPack : Statement .bpPack := fieldOp_ofNat _ _ _
theorem bpUnpack : Statement .bpUnpack := fieldOp_ofNat _ _ _
theorem ccEncode : Statement .ccEncode := fieldOp_ofNat _ _ _
theorem ccParse : Statement .ccParse := fieldOp_ofNat _ _ _
theorem bdDecode : Statement .bdDecode := fieldOp_ofNat _ _ _
theorem compress : Statement .compress := fieldOp_ofNat _ _ _
theorem decompress : Statement .decompress := fieldOp_ofNat _ _ _

end Sys2Proof.Laws.OpcodeField
end

