-- ==== Sys2Proof/Tests/Slice0.lean ====
section
/-! SUPPORT. The model's own tests: words written out from the encodings, the WellFormed smoke, one step per command with the
expected values of spec/95_test_vectors.md, and for every statement with hypotheses a witness that meets them. -/

namespace Sys2Proof.Tests

open Sys2Proof Sys2Proof.Machine

set_option maxRecDepth 100000

/-! ## Helpers -/

/-- The state an outcome carries. -/
def nextOf : Host.Outcome State Fault Refusal → Option State
  | .next t => some t
  | .fault _ => none
  | .refused _ => none

/-- The outcome is a refusal of a racing host write. -/
def racing : Host.Outcome State Fault Refusal → Bool
  | .refused .hostWriteWhileBusy => true
  | .refused (.notModelled _) => false
  | .next _ => false
  | .fault _ => false

/-- The reset state with an input loaded (R99, `LOAD`). -/
def loaded (bs : List Byte) : State :=
  { State.reset with ibuf := Memory.writeList [] 0 bs, inLen := BitVec.ofNat 32 bs.length }

/-- One command from a state. -/
def after (i : Instr) (s : State) : Option State := nextOf (exec i s)

/-- The reset state with these events at the port. -/
def atPort (es : List PortEvent) : State := { State.reset with port := es }

/-- "aaab" (95, F1). -/
def aaab : List Byte := [0x61, 0x61, 0x61, 0x62]

/-- The container of "aaab" (95, V1). -/
def containerV1 : List Byte :=
  [0x31, 0x30, 0x0A, 0x34, 0x0A, 0x61, 0x00, 0x00] ++ [0x00, 0x03, 0x62, 0x00, 0x00, 0x00, 0x01, 0xE0]

/-- The container of "x" (95, V2). -/
def containerV2 : List Byte := [0x35, 0x0A, 0x37, 0x0A, 0x78, 0x00, 0x00, 0x00, 0x01, 0x00]

/-- The table of "aaab" (95, F1). -/
def tableV1 : FreqTable := [(0x61, 3), (0x62, 1)]

/-- The tree of vector T1. -/
def treeT1 : List Node := [.leaf 0x61 3, .leaf 0x62 1, .internal 4 1 0]

/-- The code table of vector G1: b = 0, a = 1. -/
def codesG1 : CodeTable := (CodeTable.empty.assign 0x62 [false]).assign 0x61 [true]

/-- Start state of the primitive vectors of 95 section 2.4: two leaves. -/
def twoLeaves : State := { State.reset with node := [.leaf 0x61 3, .leaf 0x62 1] }

/-- A state with the tree T1 active. -/
def treeState : State := { State.reset with node := treeT1, root := 2, treeValid := true }

/-- The same with its code table. -/
def codedState : State := { treeState with ct := codesG1, ctValid := true }

/-- A state in which a command runs. -/
def busyState : State := { State.reset with running := some 0x00000010#32 }

/-! ## WellFormed: an ill-formed term for each check, refused -/

theorem test_wf_trSet_refused : Instr.wf (.trSet 512) = false := by decide
theorem test_wf_pqEnq_refused : Instr.wf (.pqEnq 512) = false := by decide
theorem test_wf_ndJoin_first_refused : Instr.wf (.ndJoin 512 0) = false := by decide
theorem test_wf_ndJoin_second_refused : Instr.wf (.ndJoin 0 512) = false := by decide

/-! ## Words written out from R91 to R93 (95 section 2.1): bits 31..26, B, A, OP -/

theorem test_word_nop : decodeTableWord 32 0b000000000000000000_00000000_000000 = some .nop := by decide
theorem test_word_clr : decodeTableWord 32 0b00000000_00000001 = some .clr := by decide
theorem test_word_ftBuild : decodeTableWord 32 0b00010000 = some .ftBuild := by decide
theorem test_word_ndLeaf : decodeTableWord 32 0b01100001_00100000 = some (.ndLeaf 0x61) := by decide
theorem test_word_ndLeaf_ff : decodeTableWord 32 0b11111111_00100000 = some (.ndLeaf 0xFF) := by decide
theorem test_word_ndJoin : decodeTableWord 32 0b000000_000000011_000000010_00100001 = some (.ndJoin 2 3) := by decide
theorem test_word_ndJoin_top : decodeTableWord 32 0b000000_111111111_111111111_00100001 = some (.ndJoin 511 511) := by decide
theorem test_word_trSet : decodeTableWord 32 0b000000_000000000_111111111_00100010 = some (.trSet 511) := by decide
theorem test_word_pqEnq : decodeTableWord 32 0b000000_000000000_100000000_00101000 = some (.pqEnq 256) := by decide
theorem test_word_pqDeq : decodeTableWord 32 0b00101001 = some .pqDeq := by decide
theorem test_word_pqSize : decodeTableWord 32 0b00101010 = some .pqSize := by decide
theorem test_word_pqEmpty : decodeTableWord 32 0b00101011 = some .pqEmpty := by decide
theorem test_word_tbBuild : decodeTableWord 32 0b00110000 = some .tbBuild := by decide
theorem test_word_cgGen : decodeTableWord 32 0b01000000 = some .cgGen := by decide
theorem test_word_bsAsm : decodeTableWord 32 0b01010000 = some .bsAsm := by decide
theorem test_word_bpPack : decodeTableWord 32 0b01010001 = some .bpPack := by decide
theorem test_word_bpUnpack : decodeTableWord 32 0b01010010 = some .bpUnpack := by decide
theorem test_word_ccEncode : decodeTableWord 32 0b01100000 = some .ccEncode := by decide
theorem test_word_ccParse : decodeTableWord 32 0b01100001 = some .ccParse := by decide
theorem test_word_bdDecode : decodeTableWord 32 0b01110000 = some .bdDecode := by decide
theorem test_word_compress : decodeTableWord 32 0b10000000 = some .compress := by decide
theorem test_word_decompress : decodeTableWord 32 0b10000001 = some .decompress := by decide

/-- The illegal words of 95 section 2.1. -/
theorem test_words_illegal :
    ∀ w ∈ [0x11, 0xFF, 0x110, 0x10020, 0x20028, 0x4000000, 0x80000021, 0x101], decodeTableWord 32 w = none := by decide

/-- Every row's opcode is in the table once (R93). -/
theorem test_opcodes_distinct : (Opcode.all.map Opcode.code).Nodup := by decide

/-- The encoder writes the words of 95 section 2.1. -/
theorem test_encode_words :
    encode (.ndLeaf 0x61) = 0x00006120 ∧ encode (.ndJoin 3 4) = 0x00080321 ∧ encode (.trSet 2) = 0x00000222 ∧
    encode (.pqEnq 5) = 0x00000528 ∧ encode .decompress = 0x00000081 := by decide

/-! ## One step per command -/

/-- A placed word runs as the first instruction after reset (95, X2). -/
theorem test_step_nop : (nextOf (step (State.reset.withFetchWord 32 0x00))).map State.statusWord = some 0x22 := by decide

/-- R231 example: CLR after an error. -/
theorem test_clr : (after .clr (afterError State.reset 1 0)).map (fun t => (t.statusWord, t.errCode)) = some (0x22, 0) := by
  decide

/-- F5: LF, '1', LF, '0'. -/
theorem test_ftBuild : (after .ftBuild (loaded [0x0A, 0x31, 0x0A, 0x30])).map State.ft =
    some [(0x0A, 2), (0x31, 1), (0x30, 1)] := by decide

/-- F9: one byte more than IBUF holds. -/
theorem test_ftBuild_long : (after .ftBuild { State.reset with inLen := 65537 }).map (fun t => (t.errCode, t.errInfo)) =
    some (6, 1) := by decide

/-- N8: the largest weight. -/
theorem test_ndLeaf : (after (.ndLeaf 0x63) { twoLeaves with arg0 := 0xFFFFFFFF }).map (fun t => (t.node[2]?, t.res0)) =
    some (some (.leaf 0x63 4294967295), 2) := by decide

/-- N6: a second leaf of a symbol. -/
theorem test_ndLeaf_again : (after (.ndLeaf 0x61) { twoLeaves with arg0 := 7 }).map (fun t => (t.errCode, t.errInfo)) =
    some (6, 4) := by decide

/-- N1: the lighter node is left although it is the second operand. -/
theorem test_ndJoin : (after (.ndJoin 0 1) twoLeaves).map (fun t => (t.node[2]?, t.res0)) =
    some (some (.internal 4 1 0), 2) := by decide

/-- N5: a node has one parent. -/
theorem test_ndJoin_twice : (after (.ndJoin 0 1) { twoLeaves with node := treeT1 }).map (fun t => (t.errCode, t.errInfo)) =
    some (6, 6) := by decide

/-- N9: a leaf is the root. -/
theorem test_trSet : (after (.trSet 1) twoLeaves).map (fun t => (t.root, t.treeValid, t.res0)) = some (1, true, 0) := by decide

/-- N11: a node with a parent is no root. -/
theorem test_trSet_parent : (after (.trSet 0) { twoLeaves with node := treeT1 }).map (fun t => t.errInfo) = some 6 := by decide

/-- R141 example: equal weights go after. -/
theorem test_pqEnq :
    (after (.pqEnq 1) { State.reset with node := [.leaf 0 9, .leaf 1 2], pq := [⟨1, 3⟩, ⟨2, 1⟩, ⟨2, 2⟩, ⟨5, 0⟩] }).map
      (fun t => (t.pq, t.res0)) = some ([⟨1, 3⟩, ⟨2, 1⟩, ⟨2, 2⟩, ⟨2, 1⟩, ⟨5, 0⟩], 5) := by decide

/-- R142: RES1 and RES2 are the low and high words of the weight. -/
theorem test_pqDeq : (after .pqDeq { State.reset with pq := [⟨2 ^ 32 + 7, 1⟩, ⟨2 ^ 33, 0⟩] }).map
    (fun t => (t.res0, t.res1, t.res2, t.pq)) = some (1, 7, 1, [⟨2 ^ 33, 0⟩]) := by decide

/-- Q-E1: PQ_DEQ on an empty queue. -/
theorem test_pqDeq_empty : (after .pqDeq State.reset).map (fun t => (t.statusWord, t.errCode, t.errInfo)) =
    some (0x24, 6, 7) := by decide

/-- R143 example. -/
theorem test_pqSize : (after .pqSize { State.reset with pq := [⟨3, 0⟩] }).map (fun t => t.res0) = some 1 := by decide

/-- R144 example. -/
theorem test_pqEmpty : (after .pqEmpty State.reset).map (fun t => t.res0) = some 1 := by decide

/-- T5: a leaf enqueued before an internal node of equal weight becomes left. -/
theorem test_tbBuild_tie : (after .tbBuild { State.reset with ft := [(0x61, 1), (0x62, 1), (0x63, 2)] }).map
    (fun t => (t.node.drop 3, t.root, t.pq, t.statusWord)) =
    some ([.internal 2 0 1, .internal 4 2 3], 4, [], 0x2A) := by decide

/-- T12: an empty table. -/
theorem test_tbBuild_empty : (after .tbBuild State.reset).map (fun t => (t.statusWord, t.errCode)) = some (0x24, 1) := by decide

/-- G4: b = 0, c = 10, a = 11. -/
theorem test_cgGen : (after .cgGen { State.reset with
      node := [.leaf 0x61 2, .leaf 0x62 2, .leaf 0x63 1, .internal 3 2 0, .internal 5 1 3], root := 4, treeValid := true }).map
    (fun t => (t.ct.get 0x62, t.ct.get 0x63, t.ct.get 0x61)) =
    some (some [false], some [true, false], some [true, true]) := by decide

/-- G12: a root that is a leaf. -/
theorem test_cgGen_leaf : (after .cgGen { twoLeaves with root := 1, treeValid := true }).map
    (fun t => (t.ct.get 0x62, t.ct.get 0x61)) = some (some [false], none) := by decide

/-- A1: "aaab" under G1. -/
theorem test_bsAsm : (after .bsAsm { loaded aaab with ct := codesG1, ctValid := true }).map State.bitbuf =
    some [true, true, true, false] := by decide

/-- A11: a symbol without a code. -/
theorem test_bsAsm_uncoded : (after .bsAsm { loaded [0x61, 0x62, 0x7A] with ct := codesG1, ctValid := true }).map
    (fun t => (t.errCode, t.errInfo)) = some (6, 8) := by decide

/-- K8: nine zero bits. -/
theorem test_bpPack : (after .bpPack { State.reset with bitbuf := List.replicate 9 false }).map
    (fun t => (t.payload, t.pkLen, t.pad)) = some ([0x00, 0x00], 2, 7) := by decide

/-- K5: 101100 is the byte B0. -/
theorem test_bpPack_order : (after .bpPack { State.reset with bitbuf := [true, false, true, true, false, false] }).map
    (fun t => (t.payload, t.pad)) = some ([0xB0], 2) := by decide

/-- K4: E0 is 11100000. -/
theorem test_bpUnpack : (after .bpUnpack { State.reset with pbuf := [(0, 0xE0)], pkLen := 1 }).map State.bitbuf =
    some [true, true, true, false, false, false, false, false] := by decide

/-- R203 example: the container V1. -/
theorem test_ccEncode : (after .ccEncode { State.reset with ft := tableV1, pbuf := [(0, 0xE0)], pkLen := 1, pad := 4 }).map
    (fun t => (t.output, t.outLen, t.hdrLen)) = some (containerV1, 16, 10) := by decide

/-- R203 corner case: an empty table. -/
theorem test_ccEncode_empty : (after .ccEncode { State.reset with pbuf := [(0, 0xB0)], pkLen := 1, pad := 2 }).map State.output =
    some [0x30, 0x0A, 0x32, 0x0A, 0xB0] := by decide

/-- R206 example: the container V1. -/
theorem test_ccParse : (after .ccParse (loaded containerV1)).map (fun t => (t.ft, t.payload, t.pad, t.hdrLen)) =
    some (tableV1, [0xE0], 4, 10) := by decide

/-- C-E5: the source's scenario S4. -/
theorem test_ccParse_cause5 : (after .ccParse (loaded (containerV1.set 1 0x32))).map
    (fun t => (t.statusWord, t.errCode, t.errInfo, t.ft)) = some (0x24, 3, 5, []) := by decide

/-- R222 example. -/
theorem test_bdDecode : (after .bdDecode { codedState with bitbuf := bits8 0xE0, pad := 4 }).map State.output = some aaab := by
  decide

/-- D9: two symbols decode, then a 1 leads nowhere. -/
theorem test_bdDecode_nowhere : (after .bdDecode { State.reset with
      ct := CodeTable.empty.assign 0x78 [false], ctValid := true, bitbuf := bits8 0x20, pad := 3 }).map
    (fun t => (t.errCode, t.errInfo)) = some (4, 2) := by decide

/-- P1: COMPRESS of "aaab". -/
theorem test_compress : (after .compress (loaded aaab)).map (fun t => (t.output, t.statusWord, t.hdrLen)) =
    some (containerV1, 0x3A, 10) := by decide

/-- P5 step 1: COMPRESS of the empty input. -/
theorem test_compress_empty : (after .compress State.reset).map (fun t => (t.statusWord, t.errCode, t.outLen)) =
    some (0x24, 1, 0) := by decide

/-- P4: DECOMPRESS of "x". -/
theorem test_decompress : (after .decompress (loaded containerV2)).map (fun t => (t.output, t.statusWord, t.bitbuf.length)) =
    some ([0x78], 0x3A, 8) := by decide

/-- C-S2: an empty table is no text. -/
theorem test_decompress_empty : (after .decompress (loaded [0x30, 0x0A, 0x30, 0x0A])).map (fun t => (t.statusWord, t.errCode)) =
    some (0x24, 1) := by decide

/-! ## The port -/

/-- X3: the reserved bits of CTRL. -/
theorem test_ctrl_write_read :
    (nextOf (step (atPort [.access (.write 0x008 4 0xFFFFFFFF)]))).map (fun t => (t.ctrlWord, t.irq)) =
    some (1, false) := by decide

/-- X6: a command other than CLR is dropped while ERR is 1. -/
theorem test_cmd_dropped : (nextOf (step { afterError State.reset 2 0 with port := [.access (.write 0x000 4 0x00)] })).map
    (fun t => (t.running, t.statusWord)) = some (none, 0x24) := by decide

/-- P5 step 4: CLR's opcode with an unused field set is accepted, then illegal. -/
theorem test_cmd_clr_illegal : (nextOf (step { afterError State.reset 1 0 with running := some 0x101 })).map
    (fun t => (t.errCode, t.errInfo)) = some (5, 0x101) := by decide

/-- R286: a command written while one runs is dropped and sets OVR. -/
theorem test_cmd_overrun : (nextOf (step { busyState with port := [.access (.write 0x000 4 0x00)] })).map
    (fun t => (t.ovr, t.running)) = some (true, some 0x10) := by decide

/-- R287: a racing write is refused. -/
theorem test_racing_write : racing (step { busyState with port := [.access (.write 0x024 4 0)] }) = true := by decide

/-- X11: a write to OBUF is a bus error. -/
theorem test_obuf_write : (nextOf (step (atPort [.access (.write 0x00020000 1 0)]))).map (fun t => (t.resp, t.obuf)) =
    some (some (.busError none), []) := by decide

/-- R68: a byte written to the IBUF window stands at its offset. -/
theorem test_ibuf_write : (nextOf (step (atPort [.access (.write 0x0001FFFF 1 0x1AB)]))).map (fun t => t.ibuf) =
    some [(65535, 0xAB)] := by decide

/-- X12: a reserved offset reads 0. -/
theorem test_reserved_read : (nextOf (step (atPort [.access (.read 0xFFC 4)]))).map (fun t => t.resp) =
    some (some (.word 0)) := by decide

/-! ## Witnesses: states and operands that meet the hypotheses of each statement, clause by clause -/

theorem witness_decodeOfEncode : (Instr.ndJoin 511 511).wf = true ∧ (Instr.trSet 511).wf = true := by decide

theorem witness_encodeOfDecode : decode 0x03FFFF21#32 = .ok (.ndJoin 511 511) := rfl

theorem witness_illegalWordRaisesError :
    ({ State.reset with running := some 0x101#32 } : State).running = some 0x101#32 ∧ (∀ i, decode 0x101#32 ≠ .ok i) :=
  ⟨rfl, fun _ h => nomatch (show (Except.error (.unusedFieldNotZero .clr) : Except DecodeError Instr) = .ok _ from h)⟩

theorem witness_stepRunsDecodedInstruction :
    (State.reset.withFetchWord 32 0x10).running = some 0x10#32 ∧ decode 0x10#32 = .ok .ftBuild ∧
    (State.reset.withFetchWord 32 0x10).port = [.wait] := ⟨rfl, rfl, rfl⟩

theorem witness_default_cfg_ok : State.reset.cfg.ok := by decide

theorem witness_commandWriteIssuesOrDrops :
    (busyState.busy = true ∧ busyState.cfg.ok) ∧
    ((afterError State.reset 1 0).busy = false ∧ (afterError State.reset 1 0).err = true ∧
      (0x10#32).extractLsb' 0 8 ≠ 0x01#8) ∧
    (State.reset.busy = false ∧ State.reset.err = false) ∧ (0x101#32).extractLsb' 0 8 = 0x01#8 := by decide

theorem witness_registerMapReads :
    State.reset.cfg.ok ∧ State.reset.busy = false ∧
    (0x004, State.reset.statusWord) ∈ ([(0x000, 0#32), (0x004, State.reset.statusWord)] : List (Nat × Word)) := by decide

theorem witness_ctrlHoldsOnlyInterruptEnable :
    State.reset.cfg.ok ∧ ∃ t, exec .nop State.reset = .next t := ⟨by decide, _, rfl⟩

theorem witness_reservedAndReadOnlyRegisters :
    State.reset.cfg.ok ∧ State.reset.busy = false ∧ (0x04C < 0x1000 ∧ 0x04C % 4 = 0) ∧
    (0xFFC < 0x1000 ∧ 0xFFC % 4 = 0 ∧ 0x04C ≤ 0xFFC) ∧ 0x048 ∈ readOnlyOffsets := by decide

/-- A write of ARG0 and one of IN_LEN reach their registers, and not each other's (R21, R33). -/
theorem test_arg0_and_inLen_writes :
    (nextOf (step (atPort [.access (.write 0x014 4 7)]))).map (fun t => (t.arg0, t.inLen)) = some (7, 0) ∧
    (nextOf (step (atPort [.access (.write 0x024 4 9)]))).map (fun t => (t.arg0, t.inLen)) = some (0, 9) := by decide

theorem witness_refusedAccess_register : accessRefused Config.default (.read 0x002#32 4) ∧
    accessRefused Config.default (.write 0xFFC#32 1 0) := by unfold accessRefused; decide

theorem witness_refusedAccess_windows : accessRefused Config.default (.read 0x0001FFFF#32 4) ∧
    accessRefused Config.default (.read 0x0003FFFF#32 2) ∧ accessRefused Config.default (.write 0x00020000#32 1 0) := by
  unfold accessRefused; decide

theorem witness_refusedAccess_outside : accessRefused Config.default (.read 0x00040000#32 1) ∧
    accessRefused Config.default (.write 0xFFFFFFFF#32 4 0) := by unfold accessRefused; decide

theorem witness_hostReadHasNoSideEffect :
    (atPort [.access (.read 0x004 4)]).port = [.access (.read 0x004 4)] := rfl

theorem witness_bufferWindowAccesses :
    State.reset.cfg.ok ∧ State.reset.busy = false ∧ 65535 < State.reset.cfg.ibufSize ∧
    (15 < ({ State.reset with outLen := 16 } : State).outLen ∧ 15 < State.reset.cfg.obufSize) := by decide

theorem witness_accessesWhileBusy :
    busyState.cfg.ok ∧ busyState.busy = true ∧ (0xFFC < 0x1000 ∧ 0xFFC % 4 = 0 ∧ 0xFFC ≠ 0x004 ∧ 0xFFC ≠ 0x008) ∧
    65535 < busyState.cfg.ibufSize := by decide

theorem witness_interruptRequestIsLevel :
    State.reset.err = false ∧ (0xFFFFFFFE#32).getLsbD 0 = false ∧ (after .nop State.reset).isSome = true := by decide

theorem witness_resetEmptiesTheBlock :
    ({ busyState with port := [.reset] } : State).port = [.reset] ∧ State.reset.running = none ∧ State.reset.port = [] :=
  ⟨rfl, rfl, rfl⟩

theorem witness_nop_and_clr_while_error :
    (afterError State.reset 1 0).busy = false ∧ (afterError State.reset 1 0).err = true := by decide

theorem witness_ftBuildCountsSymbols : (loaded aaab).inLen.toNat ≤ (loaded aaab).cfg.ibufSize := by decide

theorem witness_longInputRaisesError :
    ({ codedState with inLen := 65537 } : State).cfg.ibufSize < ({ codedState with inLen := 65537 } : State).inLen.toNat ∧
    codedState.ctValid = true := by decide

theorem witness_ndLeafAllocatesLeaf :
    State.reset.arg0 = 0 ∧ ({ twoLeaves with arg0 := 1 } : State).arg0 ≠ 0 ∧ HasLeaf twoLeaves.node 0x61 ∧
    ¬ HasLeaf State.reset.node 0x61 :=
  ⟨rfl, by decide, ⟨3, by decide⟩, fun ⟨_, h⟩ => nomatch h⟩

theorem witness_ndJoinAllocatesInternal_errors :
    twoLeaves.node.length ≤ 511 ∧ 0 < twoLeaves.node.length ∧
    (0 < treeState.node.length ∧ 1 < treeState.node.length ∧ HasParent treeState.node 0) :=
  ⟨by decide, by decide, by decide, by decide, 4, 1, 0, by decide, .inr rfl⟩

theorem witness_ndJoinAllocatesInternal :
    twoLeaves.node[0]? = some (.leaf 0x61 3) ∧ twoLeaves.node[1]? = some (.leaf 0x62 1) ∧ (0 : Nat) ≠ 1 ∧
    ¬ HasParent twoLeaves.node 0 ∧ ¬ HasParent twoLeaves.node 1 :=
  ⟨rfl, rfl, by decide, fun ⟨_, _, _, h, _⟩ => by simp [twoLeaves] at h, fun ⟨_, _, _, h, _⟩ => by simp [twoLeaves] at h⟩

theorem witness_trSetNamesRoot :
    twoLeaves.node.length ≤ 2 ∧ (0 < treeState.node.length ∧ HasParent treeState.node 0) ∧
    (1 < twoLeaves.node.length ∧ ¬ HasParent twoLeaves.node 1) :=
  ⟨by decide, ⟨by decide, 4, 1, 0, by decide, .inr rfl⟩, by decide, fun ⟨_, _, _, h, _⟩ => by simp [twoLeaves] at h⟩

theorem witness_pqEnqInsertsInOrder :
    twoLeaves.node.length ≤ 2 ∧ (1 < twoLeaves.node.length ∧ (List.replicate 511 (⟨1, 1⟩ : PqEntry)).length = 511) ∧
    (twoLeaves.node[1]? = some (.leaf 0x62 1) ∧ ([⟨1, 1⟩, ⟨3, 0⟩] : List PqEntry).length ≠ 511 ∧
      queueSorted [⟨1, 1⟩, ⟨3, 0⟩]) := by decide

theorem witness_pqDeqRemovesHead : State.reset.pq = [] ∧
    ({ State.reset with pq := [⟨1, 1⟩, ⟨3, 0⟩] } : State).pq = ⟨1, 1⟩ :: [⟨3, 0⟩] ∧ queueSorted [⟨1, 1⟩, ⟨3, 0⟩] :=
  ⟨rfl, rfl, by decide⟩

theorem witness_tbBuild : State.reset.ft = [] ∧ ({ State.reset with ft := tableV1 } : State).ft ≠ [] ∧ tableWf tableV1 := by
  decide

theorem witness_cgGen_internal_root :
    State.reset.treeValid = false ∧ treeState.treeValid = true ∧ storeWf treeState.node ∧
    treeState.root < treeState.node.length ∧ treeState.node[treeState.root]? = some (.internal 4 1 0) := by decide

theorem witness_cgGen_leaf_root :
    storeWf twoLeaves.node ∧ 1 < twoLeaves.node.length ∧ twoLeaves.node[1]? = some (.leaf 0x62 1) := by decide

theorem witness_codeLengthBounded :
    (after .cgGen treeState).map (fun t => t.ct.get 0x61) = some (some [true]) := by decide

theorem witness_bsAsm_success :
    codedState.ctValid = true ∧ (loaded aaab).inLen.toNat ≤ (loaded aaab).cfg.ibufSize ∧ allCoded codesG1 (loaded aaab).input ∧
    (encodeText codesG1 (loaded aaab).input).length ≤ 8 * (loaded aaab).cfg.pbufSize := by decide

theorem witness_bsAsm_uncoded :
    State.reset.ctValid = false ∧ (loaded [0x61, 0x62, 0x7A]).input = [0x61, 0x62] ++ 0x7A :: [] ∧
    allCoded codesG1 [0x61, 0x62] ∧ (encodeText codesG1 [0x61, 0x62]).length ≤ 8 * 65536 ∧ codesG1.get 0x7A = none := by decide

/-- With PBUF_SIZE = 1 the ninth one-bit code does not fit. -/
theorem witness_bsAsm_capacity :
    allCoded codesG1 (List.replicate 8 0x61) ∧ (encodeText codesG1 (List.replicate 8 0x61)).length ≤ 8 * 1 ∧
    codesG1.get 0x61 = some [true] ∧ 8 * 1 < (encodeText codesG1 (List.replicate 8 0x61)).length + [true].length := by decide

theorem witness_decimalText : (0 : Nat) < 10 ∧ ([0x30#8, 0x31#8] ≠ [] ∧ ∀ b ∈ [0x30#8, 0x31#8], isDigit b) ∧
    ¬ ([0x31#8, 0x0D#8] ≠ [] ∧ ∀ b ∈ [0x31#8, 0x0D#8], isDigit b) := by decide

theorem witness_tableRecords : tableWf tableV1 ∧ ([0x61#8] : List Byte).length % 5 ≠ 0 ∧
    ([] : List Byte).length % 5 = 0 ∧ (1 : Word) ≠ 0 ∧ 0x61#8 ∈ tableV1.map Prod.fst := by decide

theorem witness_ccEncode :
    (decText (5 * 2) ++ [0x0A#8, BitVec.ofNat 8 (0x30 + 4), 0x0A#8] ++ tableV1.flatMap recordBytes ++ [0xE0#8]).length = 16 ∧
    (15 < 16 ∧ 16 ≤ State.reset.cfg.obufSize) := by decide

theorem witness_ccParse :
    (loaded containerV1).inLen.toNat ≤ (loaded containerV1).cfg.ibufSize ∧
    isContainer (loaded containerV1).input [0x31, 0x30] 4 tableV1 [0xE0] ∧ ([0xE0#8] : List Byte).length ≤ 65536 ∧
    ((after .ccParse (loaded containerV1)).map (fun t => t.done) = some true) := by decide

theorem witness_ccParse_causes_1_to_4 :
    0x0A#8 ∉ (loaded [0x31, 0x30]).input ∧
    ((loaded [0x31, 0x61, 0x0A]).input = [0x31, 0x61] ++ 0x0A#8 :: [] ∧ 0x0A#8 ∉ [0x31#8, 0x61#8] ∧
      ¬ ([0x31#8, 0x61#8] ≠ [] ∧ ∀ b ∈ [0x31#8, 0x61#8], isDigit b)) ∧
    ((loaded [0x31, 0x30, 0x0A, 0x38, 0x0A]).input = [0x31, 0x30] ++ 0x0A#8 :: 0x38#8 :: [0x0A] ∧
      ([0x31#8, 0x30#8] ≠ [] ∧ ∀ b ∈ [0x31#8, 0x30#8], isDigit b) ∧ 0x37 < (0x38#8).toNat) ∧
    (0x30 ≤ (0x37#8).toNat ∧ (0x37#8).toNat ≤ 0x37 ∧ ([0x20] : List Byte).head? ≠ some 0x0A#8) := by decide

theorem witness_ccParse_causes_5_to_9 :
    ((11 : Nat) < textValue [0x31, 0x32]) ∧
    (textValue [0x31, 0x30] ≤ ((containerV1.drop 5).take 10).length ∧
      deserTable (((containerV1.drop 5).take 10).take (textValue [0x31, 0x30])) = .ok tableV1 ∧
      ((containerV1.drop 5).take 10).length = textValue [0x31, 0x30] ∧ 0x34#8 ≠ 0x30#8) ∧
    deserTable (serTable [(0x61, 3)] ++ serTable [(0x61, 1)]) = .error 8 ∧
    0 < (containerV1.drop 5).length - textValue [0x31, 0x30] := ⟨by decide, ⟨by decide, rfl, by decide, by decide⟩, rfl, by decide⟩

theorem witness_codecRoundTrip :
    tableWf tableV1 ∧ (4 ≤ 7 ∧ ((1 : Nat) = 0 → (4 : Nat) = 0)) ∧
    ((after .ccEncode { State.reset with ft := tableV1, pbuf := [(0, 0xE0)], pkLen := 1, pad := 4 }).map
      (fun t => (t.done, t.output)) = some (true, (loaded containerV1).input)) ∧
    (loaded containerV1).inLen.toNat ≤ (loaded containerV1).cfg.ibufSize ∧ 1 ≤ (loaded containerV1).cfg.pbufSize := by decide

theorem witness_bdDecodeInvertsAssembly :
    codedState.ctValid = true ∧ codesWf codedState.ct ∧ 4 ≤ (bits8 0xE0).length ∧
    (bits8 0xE0).take ((bits8 0xE0).length - 4) = encodeText codedState.ct aaab ∧ allCoded codedState.ct aaab ∧
    aaab.length ≤ codedState.cfg.obufSize := by decide

/-- D5: the bits end inside a code, with the codes c = 0, a = 10, b = 11. -/
theorem witness_bdDecodeErrors_inside_code :
    codesWf (((CodeTable.empty.assign 0x63 [false]).assign 0x61 [true, false]).assign 0x62 [true, true]) ∧
    [true] ≠ ([] : Bits) ∧
    (∃ c ∈ codesOf (((CodeTable.empty.assign 0x63 [false]).assign 0x61 [true, false]).assign 0x62 [true, true]),
      [true] <+: c ∧ [true] ≠ c) := by decide

/-- D8 and D17: a bit that leads nowhere, and a code beyond a full output, with the single code 0. -/
theorem witness_bdDecodeErrors_nowhere_and_full :
    codesWf (CodeTable.empty.assign 0x78 [false]) ∧
    (∀ c ∈ codesOf (CodeTable.empty.assign 0x78 [false]), ¬ ([] : Bits) ++ [true] <+: c) ∧
    ([] : Bits) ++ [false] ∈ codesOf (CodeTable.empty.assign 0x78 [false]) ∧ ([0x78#8] : List Byte).length = 1 := by decide

theorem witness_codeTableCurrent :
    codedState.codeTableCurrent ∧ codedState.ctValid = true ∧ codedState.pad ≤ codedState.bitbuf.length := by decide

theorem witness_treeWalk_error : ∃ e, treeWalk twoLeaves.node 1 5 [false, true] 0 1 [] = .error e := ⟨_, rfl⟩

theorem witness_treeWalk_output : treeWalk treeT1 2 5 [true, false] 0 2 [] = .ok [0x61, 0x62] := rfl

theorem witness_compressWritesContainer :
    0 < (loaded aaab).inLen.toNat ∧ (loaded aaab).inLen.toNat ≤ (loaded aaab).cfg.ibufSize ∧
    buildTable (loaded aaab).input = tableV1 ∧ (encodeText (codeTableOf tableV1) aaab).length = 4 ∧
    (8 * 0 < 4 ∧ 4 ≤ 8 * (loaded aaab).cfg.pbufSize) ∧
    (metaLine (5 * 2) (padCount 4) ++ tableV1.flatMap recordBytes ++ packBytes (encodeText (codeTableOf tableV1) aaab)).length =
      16 ∧ (15 < 16 ∧ 16 ≤ (loaded aaab).cfg.obufSize) := by decide

theorem witness_compressEmptyInput : State.reset.inLen = 0 := rfl

theorem witness_compressIsDeterministic :
    (loaded aaab).cfg = ({ loaded aaab with arg0 := 1 } : State).cfg ∧
    ∀ a, a < 4 → (loaded aaab).byteAt .ibuf a = ({ loaded aaab with arg0 := 1 } : State).byteAt .ibuf a := ⟨rfl, fun _ _ => rfl⟩

theorem witness_decompressReturnsText :
    isContainer (loaded containerV2).input [0x35] 7 [(0x78, 1)] [0x00] ∧
    (unpackBytes [0x00]).take (8 * 1 - 7) = encodeText (codeTableOf [(0x78, 1)]) [0x78] ∧
    allCoded (codeTableOf [(0x78, 1)]) [0x78] ∧ isContainer [0x30, 0x0A, 0x30, 0x0A] [0x30] 0 [] [] := by decide

/-- The parser's error (cause 2), and after it the decoder's: the single code 0 meets a bit 1; a second 0 finds OBUF full. -/
theorem witness_decompressReturnsText_errors :
    exec .ccParse (loaded [0x31, 0x61, 0x0A]) = .next (afterError (loaded [0x31, 0x61, 0x0A]) 3 2) ∧
    isContainer (loaded (containerV2.set 9 0x80)).input [0x35] 7 [(0x78, 1)] [0x80] ∧
    decodeBits (codeTableOf [(0x78, 1)]) 131072 ((unpackBytes [0x80]).take (8 * 1 - 7)) 0 [] [] =
      .error (unknownSymbolError 0) ∧
    decodeBits (codeTableOf [(0x78, 1)]) 1 ((unpackBytes [0x00]).take (8 * 1 - 6)) 0 [] [] = .error (capacityError 4) :=
  ⟨rfl, by decide, rfl, rfl⟩

theorem witness_compressDecompressRoundTrip :
    (1 ≤ (loaded aaab).inLen.toNat ∧ (loaded aaab).inLen.toNat ≤ (loaded aaab).cfg.obufSize) ∧
    (after .compress (loaded aaab)).map (fun t => (t.done, t.output)) = some (true, (loaded containerV1).input) ∧
    (loaded containerV1).cfg = (loaded aaab).cfg ∧ (loaded containerV1).inLen.toNat ≤ (loaded containerV1).cfg.ibufSize := by
  decide

theorem witness_everyCommandRules :
    (after .pqDeq State.reset).map (fun t => t.done) = some false ∧ (after .pqSize State.reset).map (fun t => t.done) = some true ∧
    (after .compress (loaded aaab)).map (fun t => t.done) = some true ∧ storesPbuf .bpPack = true ∧ storesObuf .ccEncode = true ∧
    clearsResults .compress = true ∧ writesResult .cgGen = false := by decide

/-- A state that meets all invariants with something in every structure: "aaab" compressed, then the root enqueued. -/
theorem witness_invariants :
    ((after .compress (loaded aaab)).bind (after (.pqEnq 2))).map
      (fun t => decide (t.codeTableCurrent) && decide (t.buffersWf) && decide (t.errorStateWf)) = some true ∧
    (nextOf (step State.reset)).isSome = true := by decide

theorem witness_errorStateWf : (afterError State.reset 6 7).errorStateWf := by decide

theorem witness_nodeStoreBounded : storeWf treeT1 := by decide

end Sys2Proof.Tests
end

section
/-! PROOFS. The empty structures meet the invariants of `Sys2Proof/Safety.lean`, and so does the state after reset (R50), whose
structures are all empty. -/

namespace Sys2Proof.Machine

/-! ### Empty structures are well formed -/

theorem tableWf_nil : tableWf [] := ⟨List.nodup_nil, List.not_mem_nil⟩

theorem storeWf_nil : storeWf [] :=
  ⟨fun _ hi => absurd hi (Nat.not_lt_zero _), fun _ hi => absurd hi (Nat.not_lt_zero _), List.nodup_nil⟩

theorem queueWf_nil (nodes : List Node) : queueWf nodes [] :=
  ⟨Nat.zero_le _, List.Pairwise.nil, fun _ he => absurd he List.not_mem_nil⟩

/-- A memory that lists nothing is well formed when no byte of it has to be known. -/
theorem memoryWf_nil (size : Nat) : memoryWf [] size 0 :=
  ⟨List.Pairwise.nil, fun _ hc => absurd hc List.not_mem_nil, fun _ ha => absurd ha (Nat.not_lt_zero _)⟩

/-- An empty instance (R51) meets R39, R42, R43 and R44: there is no active tree whose root could be unallocated. -/
theorem State.structuresWf_of_empty {s : State} (hft : s.ft = []) (hnode : s.node = []) (hpq : s.pq = [])
    (htree : s.treeValid = false) : s.structuresWf := by
  refine ⟨hft ▸ tableWf_nil, hnode ▸ storeWf_nil, hpq ▸ queueWf_nil s.node, fun h => ?_⟩
  rw [htree] at h
  contradiction

/-- While CT_VALID is 0 there is no code table to compare with the active tree. -/
theorem State.codeTableCurrent_of_not_ctValid {s : State} (hs : s.structuresWf) (hct : s.ctValid = false) :
    s.codeTableCurrent := by
  refine ⟨hs, fun h => ?_⟩
  rw [hct] at h
  contradiction

/-! ### The state after reset -/

/-- The default parameters lie in the ranges of R6, and their three windows are disjoint (R66). -/
theorem Config.ok_default : Config.default.ok := by decide

theorem State.structuresWf_reset : State.reset.structuresWf := State.structuresWf_of_empty rfl rfl rfl rfl

theorem State.codeTableCurrent_reset : State.reset.codeTableCurrent :=
  State.codeTableCurrent_of_not_ctValid State.structuresWf_reset rfl

/-- The three memories list nothing after reset, and the lengths ask for none of their bytes (R34, R46, R50). -/
theorem State.buffersWf_reset : State.reset.buffersWf :=
  ⟨tableWf_nil, Nat.zero_le _, Nat.zero_le _, Nat.zero_le _, Nat.zero_le _, Nat.two_pow_pos 32,
    memoryWf_nil _, memoryWf_nil _, memoryWf_nil _⟩

/-- After reset ERR is 0, so the error registers are 0, and no command runs. -/
theorem State.errorStateWf_reset : State.reset.errorStateWf := by
  refine ⟨fun herr => ?_, fun _ => ⟨rfl, rfl⟩, fun _ => rfl⟩
  have hreset : State.reset.err = false := rfl
  rw [hreset] at herr
  contradiction

/-- Settles O55: the default parameters are in range, and each invariant holds of the reset state, whose structures are empty. -/
theorem resetMeetsInvariants : Obligations.ResetMeetsInvariants :=
  ⟨Config.ok_default, State.codeTableCurrent_reset, State.buffersWf_reset, State.errorStateWf_reset⟩

end Sys2Proof.Machine
end

section
/-! PROOFS. The node store (R40 to R42): what a new node asks of the store it joins, and the bounds that R42 puts on the number
of nodes, on the weights and on the length of a path. -/

namespace Sys2Proof.Machine

/-! ### Reading an extended store -/

theorem weightAt_of_getElem? {nodes : List Node} {i : Nat} {n : Node} (h : nodes[i]? = some n) :
    weightAt nodes i = n.weight := by
  simp [weightAt, h]

theorem weightAt_append {nodes more : List Node} {i : Nat} (hi : i < nodes.length) :
    weightAt (nodes ++ more) i = weightAt nodes i := by
  simp [weightAt, List.getElem?_append_left hi]

@[simp] theorem weightAt_append_length (nodes : List Node) (n : Node) : weightAt (nodes ++ [n]) nodes.length = n.weight :=
  weightAt_of_getElem? (by simp)

@[simp] theorem hasParent_append (nodes : List Node) (n : Node) (i : Nat) :
    hasParent (nodes ++ [n]) i = (hasParent nodes i || n.isParentOf i) := by
  simp [hasParent]

@[simp] theorem hasLeaf_append (nodes : List Node) (n : Node) (x : Byte) :
    hasLeaf (nodes ++ [n]) x = (hasLeaf nodes x || n.isLeafOf x) := by
  simp [hasLeaf]

theorem hasParent_eq_false {nodes : List Node} {i : Nat} :
    hasParent nodes i = false ↔ nodes.countP (Node.isParentOf i) = 0 := by
  simp [hasParent, List.countP_eq_zero]

theorem hasLeaf_eq_false {nodes : List Node} {x : Byte} :
    hasLeaf nodes x = false ↔ x ∉ nodes.filterMap Node.symbol? := by
  have isLeafOf_iff (n : Node) : n.isLeafOf x = true ↔ n.symbol? = some x := by
    cases n <;> simp [Node.isLeafOf, Node.symbol?]
  rw [← Bool.not_eq_true]
  simp [hasLeaf, isLeafOf_iff]

/-! ### One more node -/

/-- What R42 asks of a node that is allocated next: a leaf has a fresh symbol and a weight in range, an internal node has two
different parentless children and the sum of their weights. -/
def Node.fits (nodes : List Node) : Node → Prop
  | .leaf x w => 1 ≤ w ∧ w < 2 ^ 32 ∧ hasLeaf nodes x = false
  | .internal w l r => l ≠ r ∧ l < nodes.length ∧ r < nodes.length ∧ w = weightAt nodes l + weightAt nodes r ∧
      hasParent nodes l = false ∧ hasParent nodes r = false

/-- The condition of R42 on a node reads earlier nodes only. -/
theorem Node.okAt_append {nodes more : List Node} {i : Nat} (hi : i ≤ nodes.length) (n : Node) :
    Node.okAt (nodes ++ more) i n = Node.okAt nodes i n := by
  cases n with
  | leaf x w => rfl
  | internal w l r =>
    by_cases h : l < i ∧ r < i
    · simp only [Node.okAt, weightAt_append (show l < nodes.length by omega), weightAt_append (show r < nodes.length by omega)]
    · simp only [Node.okAt]
      grind

theorem getElem?_all_okAt_append {nodes : List Node} {i : Nat} (hi : i < nodes.length) (n : Node) :
    (nodes ++ [n])[i]?.all (Node.okAt (nodes ++ [n]) i) = nodes[i]?.all (Node.okAt nodes i) := by
  simp [List.getElem?_append_left hi, List.getElem?_eq_getElem hi, Node.okAt_append (Nat.le_of_lt hi)]

/-- No node is a parent of an index that is not allocated. -/
theorem hasParent_length {nodes : List Node}
    (hok : ∀ i, i < nodes.length → (nodes[i]?.all (Node.okAt nodes i)) = true) : hasParent nodes nodes.length = false := by
  rw [← Bool.not_eq_true, hasParent, List.any_eq_true]
  rintro ⟨n, hn, hp⟩
  obtain ⟨i, hi, rfl⟩ := List.getElem_of_mem hn
  have := hok i hi
  rw [List.getElem?_eq_getElem hi, Option.all_some] at this
  cases hc : nodes[i] <;> simp [hc, Node.okAt, Node.isParentOf] at this hp
  omega

theorem forall_okAt_append {nodes : List Node} {n : Node} :
    (∀ i, i < (nodes ++ [n]).length → ((nodes ++ [n])[i]?.all (Node.okAt (nodes ++ [n]) i)) = true) ↔
      (∀ i, i < nodes.length → (nodes[i]?.all (Node.okAt nodes i)) = true) ∧ Node.okAt nodes nodes.length n = true := by
  have hlast : (nodes ++ [n])[nodes.length]?.all (Node.okAt (nodes ++ [n]) nodes.length) =
      Node.okAt nodes nodes.length n := by simp [Node.okAt_append]
  constructor
  · intro h
    exact ⟨fun i hi => getElem?_all_okAt_append hi n ▸ h i (by simp; omega), hlast ▸ h nodes.length (by simp)⟩
  · rintro ⟨hold, hnew⟩ i hi
    rcases Nat.lt_or_eq_of_le (show i ≤ nodes.length by simp at hi; omega) with hi | rfl
    · rw [getElem?_all_okAt_append hi, hold i hi]
    · rw [hlast, hnew]

theorem forall_parents_append {nodes : List Node} {n : Node} (hlen : hasParent nodes nodes.length = false) :
    (∀ i, i < (nodes ++ [n]).length → (nodes ++ [n]).countP (Node.isParentOf i) ≤ 1) ↔
      (∀ i, i < nodes.length → nodes.countP (Node.isParentOf i) ≤ 1) ∧
      ∀ i, i < nodes.length → n.isParentOf i = true → hasParent nodes i = false := by
  simp only [hasParent_eq_false, List.countP_append, List.countP_singleton, List.length_append, List.length_singleton] at hlen ⊢
  constructor
  · intro h
    refine ⟨fun i hi => ?_, fun i hi hp => ?_⟩ <;> have := h i (by omega)
    · omega
    · rw [if_pos hp] at this; omega
  · rintro ⟨hold, hnew⟩ i hi
    rcases Nat.lt_or_eq_of_le (show i ≤ nodes.length by omega) with hi | rfl
    · split
      · next hp => rw [hnew i hi hp]
      · exact hold i hi
    · rw [hlen]; split <;> omega

theorem nodup_symbols_append {nodes : List Node} {n : Node} :
    ((nodes ++ [n]).filterMap Node.symbol?).Nodup ↔
      (nodes.filterMap Node.symbol?).Nodup ∧ ∀ x, n.symbol? = some x → hasLeaf nodes x = false := by
  simp only [hasLeaf_eq_false, List.filterMap_append]
  cases n with
  | leaf x w => rw [List.nodup_append_comm]; simp [Node.symbol?, and_comm]
  | internal w l r => simp [List.filterMap_cons, Node.symbol?]

/-- The three conditions of R42, read off for the one node that is new. -/
theorem Node.fits_iff {nodes : List Node} {n : Node} :
    n.fits nodes ↔ Node.okAt nodes nodes.length n = true ∧
      (∀ i, i < nodes.length → n.isParentOf i = true → hasParent nodes i = false) ∧
      ∀ x, n.symbol? = some x → hasLeaf nodes x = false := by
  cases n with
  | leaf x w => simp [Node.fits, Node.okAt, Node.isParentOf, Node.symbol?, and_assoc]
  | internal w l r =>
    simp only [Node.fits, Node.okAt, Node.isParentOf, Node.symbol?, Bool.and_eq_true, Bool.or_eq_true, bne_iff_ne,
      beq_iff_eq, decide_eq_true_eq]
    grind

/-- A store meets R42 when it does without its last node and that node fits. -/
theorem storeWf_append {nodes : List Node} {n : Node} : storeWf (nodes ++ [n]) ↔ storeWf nodes ∧ n.fits nodes := by
  rw [storeWf, forall_okAt_append, nodup_symbols_append, Node.fits_iff, storeWf]
  constructor
  · rintro ⟨⟨hok, hn⟩, hpar, hsym, hfresh⟩
    obtain ⟨hone, hnew⟩ := (forall_parents_append (hasParent_length hok)).1 hpar
    exact ⟨⟨hok, hone, hsym⟩, hn, hnew, hfresh⟩
  · rintro ⟨⟨hok, hone, hsym⟩, hn, hnew, hfresh⟩
    exact ⟨⟨hok, hn⟩, (forall_parents_append (hasParent_length hok)).2 ⟨hone, hnew⟩, hsym, hfresh⟩

/-- The children of an internal node have smaller indices (R42). -/
theorem children_lt_of_storeWf {nodes : List Node} {i w l r : Nat} (h : storeWf nodes)
    (hi : nodes[i]? = some (.internal w l r)) : l < i ∧ r < i := by
  obtain ⟨hok, -, -⟩ := h
  have := hok i (List.getElem?_eq_some_iff.1 hi).1
  simp only [hi, Option.all_some, Node.okAt, Bool.and_eq_true, decide_eq_true_eq] at this
  obtain ⟨⟨⟨-, hl⟩, hr⟩, -⟩ := this
  exact ⟨hl, hr⟩

/-! ### The nodes without a parent -/

/-- The indices of the nodes that no node is a parent of: the roots of the forest that the store is. -/
def rootsOf (nodes : List Node) : Finset Nat := (Finset.range nodes.length).filter (fun i => hasParent nodes i = false)

theorem mem_rootsOf {nodes : List Node} {i : Nat} : i ∈ rootsOf nodes ↔ i < nodes.length ∧ hasParent nodes i = false := by
  simp [rootsOf]

/-- A fitting node becomes a root, and its children are roots no longer. -/
theorem rootsOf_append {nodes : List Node} {n : Node} (h : storeWf nodes) (hn : n.fits nodes) :
    rootsOf (nodes ++ [n]) = insert nodes.length ((rootsOf nodes).filter (fun i => n.isParentOf i = false)) := by
  have hlen := hasParent_length (forall_okAt_append.1 (storeWf_append.2 ⟨h, hn⟩).1).1
  have hself : n.isParentOf nodes.length = false := by
    cases n with
    | leaf x w => rfl
    | internal w l r =>
      obtain ⟨-, hl, hr, -⟩ := hn
      simp [Node.isParentOf, hl.ne, hr.ne]
  ext i
  simp only [mem_rootsOf, Finset.mem_insert, Finset.mem_filter, List.length_append, List.length_singleton,
    hasParent_append, Bool.or_eq_false_iff]
  grind

/-- The last node is a root: its parent would have a larger index. -/
theorem length_mem_rootsOf_append {nodes : List Node} {n : Node} (h : storeWf nodes) (hn : n.fits nodes) :
    nodes.length ∈ rootsOf (nodes ++ [n]) := by
  simp [rootsOf_append h hn]

theorem length_notMem_rootsOf (nodes : List Node) : nodes.length ∉ rootsOf nodes := by simp [mem_rootsOf]

/-- A new leaf is one root more. -/
theorem sum_rootsOf_append_leaf {nodes : List Node} {x : Byte} {w : Nat} (f : Nat → Nat) (h : storeWf nodes)
    (hn : (Node.leaf x w).fits nodes) :
    ∑ i ∈ rootsOf (nodes ++ [.leaf x w]), f i = ∑ i ∈ rootsOf nodes, f i + f nodes.length := by
  rw [rootsOf_append h hn]
  simp [Node.isParentOf, length_notMem_rootsOf, add_comm]

/-- A new internal node takes the place of its two children among the roots. -/
theorem sum_rootsOf_append_internal {nodes : List Node} {w l r : Nat} (f : Nat → Nat) (h : storeWf nodes)
    (hn : (Node.internal w l r).fits nodes) :
    ∑ i ∈ rootsOf (nodes ++ [.internal w l r]), f i + (f l + f r) = ∑ i ∈ rootsOf nodes, f i + f nodes.length := by
  rw [rootsOf_append h hn]
  obtain ⟨hne, hl, hr, -, hpl, hpr⟩ := hn
  have hrest : (rootsOf nodes).filter (fun i => (Node.internal w l r).isParentOf i = false) = rootsOf nodes \ {l, r} := by
    ext i
    simp [Node.isParentOf, eq_comm (b := i)]
  have hsub : {l, r} ⊆ rootsOf nodes := by
    simp [Finset.insert_subset_iff, mem_rootsOf, hl, hr, hpl, hpr]
  rw [hrest, Finset.sum_insert (by simp [length_notMem_rootsOf]), ← Finset.sum_sdiff hsub, Finset.sum_pair hne]
  omega

/-! ### Numbers of nodes, leaves and roots -/

/-- The number of leaves. -/
def leafCount (nodes : List Node) : Nat := (nodes.filterMap Node.symbol?).length

@[simp] theorem leafCount_append (nodes : List Node) (n : Node) :
    leafCount (nodes ++ [n]) = leafCount nodes + leafCount [n] := by simp [leafCount]

@[simp] theorem leafCount_leaf (x : Byte) (w : Nat) : leafCount [.leaf x w] = 1 := rfl

@[simp] theorem leafCount_internal (w l r : Nat) : leafCount [.internal w l r] = 0 := rfl

/-- There are ALPHABET bytes (R6). -/
theorem length_le_alphabet {xs : List Byte} (h : xs.Nodup) : xs.length ≤ Config.alphabet := by
  simpa using (h.map (f := BitVec.toFin) fun _ _ => BitVec.eq_of_toFin_eq).length_le_card

/-- No two leaves hold the same symbol (R42), so there are at most ALPHABET of them. -/
theorem leafCount_le {nodes : List Node} (h : storeWf nodes) : leafCount nodes ≤ 256 := by
  obtain ⟨-, -, hsym⟩ := h
  exact length_le_alphabet hsym

/-- Every join turns two roots into one: a forest of `L` leaves and `R` roots has `2 * L - R` nodes (R152). -/
theorem card_rootsOf_add_length {nodes : List Node} (h : storeWf nodes) :
    (rootsOf nodes).card + nodes.length = 2 * leafCount nodes := by
  induction nodes using List.reverseRecOn with
  | nil => rfl
  | append_singleton nodes n ih =>
    obtain ⟨hold, hn⟩ := storeWf_append.1 h
    have hcard := ih hold
    cases n with
    | leaf x w =>
      have hroots := sum_rootsOf_append_leaf (fun _ => 1) hold hn
      simp at hroots ⊢
      omega
    | internal w l r =>
      have hroots := sum_rootsOf_append_internal (fun _ => 1) hold hn
      simp at hroots ⊢
      omega

/-- A store that is not empty has a root. -/
theorem rootsOf_card_pos {nodes : List Node} (h : storeWf nodes) (hne : nodes ≠ []) : 0 < (rootsOf nodes).card := by
  cases nodes using List.reverseRecOn with
  | nil => exact absurd rfl hne
  | append_singleton nodes n =>
    obtain ⟨h, hn⟩ := storeWf_append.1 h
    exact Finset.card_pos.2 ⟨nodes.length, length_mem_rootsOf_append h hn⟩

/-- A store that is not empty has at least one leaf more than internal nodes. -/
theorem length_lt_two_mul_leafCount {nodes : List Node} (h : storeWf nodes) (hne : nodes ≠ []) :
    nodes.length < 2 * leafCount nodes := by
  have := card_rootsOf_add_length h
  have := rootsOf_card_pos h hne
  omega

theorem length_le_nodeCap {nodes : List Node} (h : storeWf nodes) : nodes.length ≤ Config.nodeCap := by
  rcases eq_or_ne nodes [] with rfl | hne
  · exact Nat.zero_le _
  · have := length_lt_two_mul_leafCount h hne
    have := leafCount_le h
    simp only [Config.nodeCap]
    omega

/-! ### Weights -/

/-- The sum of the weights of the leaves. -/
def leafWeightSum (nodes : List Node) : Nat := (nodes.map (fun n => if n.symbol?.isSome then n.weight else 0)).sum

@[simp] theorem leafWeightSum_append (nodes : List Node) (n : Node) :
    leafWeightSum (nodes ++ [n]) = leafWeightSum nodes + leafWeightSum [n] := by simp [leafWeightSum]

@[simp] theorem leafWeightSum_leaf (x : Byte) (w : Nat) : leafWeightSum [.leaf x w] = w := rfl

@[simp] theorem leafWeightSum_internal (w l r : Nat) : leafWeightSum [.internal w l r] = 0 := rfl

/-- A leaf weighs less than `2^32` (R42). -/
theorem leafWeightSum_le {nodes : List Node} (h : storeWf nodes) :
    leafWeightSum nodes ≤ leafCount nodes * (2 ^ 32 - 1) := by
  induction nodes using List.reverseRecOn with
  | nil => exact Nat.zero_le _
  | append_singleton nodes n ih =>
    obtain ⟨h, hn⟩ := storeWf_append.1 h
    have := ih h
    cases n with
    | leaf x w =>
      obtain ⟨-, hw, -⟩ := hn
      simp at this ⊢
      omega
    | internal w l r => simpa using this

/-- The weights of old nodes stay as a node is added. -/
theorem sum_weightAt_rootsOf_append (nodes : List Node) (n : Node) :
    ∑ i ∈ rootsOf nodes, weightAt (nodes ++ [n]) i = ∑ i ∈ rootsOf nodes, weightAt nodes i :=
  Finset.sum_congr rfl fun _ hi => weightAt_append (mem_rootsOf.1 hi).1

/-- A join weighs what its children weigh (R154), so the roots together weigh what the leaves weigh. -/
theorem sum_weightAt_rootsOf {nodes : List Node} (h : storeWf nodes) :
    ∑ i ∈ rootsOf nodes, weightAt nodes i = leafWeightSum nodes := by
  induction nodes using List.reverseRecOn with
  | nil => rfl
  | append_singleton nodes n ih =>
    obtain ⟨hold, hn⟩ := storeWf_append.1 h
    have hsum := ih hold
    rw [← sum_weightAt_rootsOf_append nodes n] at hsum
    cases n with
    | leaf x w => simp [sum_rootsOf_append_leaf _ hold hn, hsum, Node.weight]
    | internal w l r =>
      have hroots := sum_rootsOf_append_internal (weightAt (nodes ++ [.internal w l r])) hold hn
      obtain ⟨-, hl, hr, hw, -, -⟩ := hn
      simp only [weightAt_append hl, weightAt_append hr, weightAt_append_length, Node.weight, hsum] at hroots
      simp
      omega

/-- No node weighs more than the leaves together: it was a root when it was allocated. -/
theorem weight_le_leafWeightSum {nodes : List Node} (h : storeWf nodes) {n : Node} (hn : n ∈ nodes) :
    n.weight ≤ leafWeightSum nodes := by
  induction nodes using List.reverseRecOn with
  | nil => exact absurd hn List.not_mem_nil
  | append_singleton nodes m ih =>
    obtain ⟨hold, hm⟩ := storeWf_append.1 h
    rcases List.mem_append.1 hn with hn | hn
    · have := ih hold hn
      simp
      omega
    · obtain rfl := List.mem_singleton.1 hn
      rw [← sum_weightAt_rootsOf h, ← weightAt_append_length nodes n]
      exact Finset.single_le_sum (fun _ _ => Nat.zero_le _) (length_mem_rootsOf_append hold hm)

/-- Settles O60: a store has one root at least and 256 leaves at most, and no node outweighs its leaves. -/
theorem nodeStoreBounded : Obligations.NodeStoreBounded := by
  intro nodes h
  refine ⟨length_le_nodeCap h, fun n hn => ?_⟩
  calc n.weight ≤ leafWeightSum nodes := weight_le_leafWeightSum h hn
    _ ≤ leafCount nodes * (2 ^ 32 - 1) := leafWeightSum_le h
    _ ≤ 256 * (2 ^ 32 - 1) := Nat.mul_le_mul_right _ (leafCount_le h)
    _ < 2 ^ 40 := by decide

end Sys2Proof.Machine
end

section
/-! PROOFS. What a command leaves when it succeeds, said once: the effect of each command that is not made of others, the chain of
effects that COMPRESS and DECOMPRESS are (R233, R235), and what all of them leave alone. -/

namespace Sys2Proof.Machine

/-! ### The effect of a command -/

/-- `Effect i s u`: command `i` succeeds on `s` and leaves `u`, before its completion. CLR, which also leaves the error state, and
the composite commands are not among these. -/
inductive Effect : Instr → State → State → Prop
  | nop {s} : Effect .nop s s
  | ftBuild {s} (hlen : s.inputTooLong = false) : Effect .ftBuild s { s.invalidate with ft := buildTable s.input }
  | ndLeaf {s x} (hweight : s.arg0 ≠ 0) (hfresh : hasLeaf s.node x = false) :
      Effect (.ndLeaf x) s (s.allocate (.leaf x s.leafWeight))
  | ndJoin {s a b} (ha : a < s.node.length) (hb : b < s.node.length) (hne : a ≠ b) (hpa : hasParent s.node a = false)
      (hpb : hasParent s.node b = false) : Effect (.ndJoin a b) s (s.allocate (joinNode s.node a b))
  | trSet {s a} (ha : a < s.node.length) (hpa : hasParent s.node a = false) :
      Effect (.trSet a) s { s with root := a, treeValid := true, ctValid := false }
  | pqEnq {s a} (ha : a < s.node.length) (hcap : s.pq.length ≠ Config.pqCap) :
      Effect (.pqEnq a) s { s with
        pq := pqInsert s.pq ⟨weightAt s.node a, a⟩
        res0 := BitVec.ofNat 32 (pqInsert s.pq ⟨weightAt s.node a, a⟩).length }
  | pqDeq {s e q} (hq : s.pq = e :: q) :
      Effect .pqDeq s { s with
        pq := q, res0 := BitVec.ofNat 32 e.idx
        res1 := BitVec.ofNat 32 e.weight, res2 := BitVec.ofNat 32 (e.weight / 2 ^ 32) }
  | pqSize {s} : Effect .pqSize s { s with res0 := BitVec.ofNat 32 s.pq.length }
  | pqEmpty {s} : Effect .pqEmpty s { s with res0 := BitVec.ofNat 32 (flagBit s.pqEmpty 0) }
  | tbBuild {s e q} (hq : (buildTree s.ft).2 = e :: q) :
      Effect .tbBuild s { s with node := (buildTree s.ft).1, pq := q, root := e.idx, treeValid := true, ctValid := false }
  | cgGen {s} (htree : s.treeValid = true) : Effect .cgGen s { s with ct := genCodes s.node s.root, ctValid := true }
  | bsAsm {s bits} (hct : s.ctValid = true) (hlen : s.inputTooLong = false)
      (hbits : assembleBits s.ct s.cfg.bitCap s.input [] = .ok bits) : Effect .bsAsm s { s with bitbuf := bits }
  | bpPack {s} : Effect .bpPack s { s.writePayload (packBytes s.bitbuf) with pad := padCount s.bitbuf.length }
  | bpUnpack {s} : Effect .bpUnpack s { s with bitbuf := unpackBytes s.payload }
  | ccEncode {s} (hfit : (containerBytes s.ft s.pad s.payload).length ≤ s.cfg.obufSize) :
      Effect .ccEncode s { s.writeOutput (containerBytes s.ft s.pad s.payload) with hdrLen := (serTable s.ft).length }
  | ccParse {s p} (hlen : s.inputTooLong = false) (hparse : parseContainer s.cfg.pbufSize s.input = .ok p) :
      Effect .ccParse s (s.invalidate.commitParse p)
  | bdDecode {s out} (hct : s.ctValid = true) (hpad : s.pad ≤ s.bitbuf.length)
      (hout : decodeBits s.ct s.cfg.obufSize (s.bitbuf.take (s.bitbuf.length - s.pad)) 0 [] [] = .ok out) :
      Effect .bdDecode s (s.writeOutput out)

/-- Effects one after the other (R233, R235). -/
inductive Effects : List Instr → State → State → Prop
  | nil {s} : Effects [] s s
  | cons {i is s t u} (hfirst : Effect i s t) (hrest : Effects is t u) : Effects (i :: is) s u

/-- The stages of the composite commands (R233, R235). -/
def stagesOf : Instr → List Instr
  | .compress => [.ftBuild, .tbBuild, .cgGen, .bsAsm, .bpPack, .ccEncode]
  | .decompress => [.ccParse, .tbBuild, .cgGen, .bpUnpack, .bdDecode]
  | .nop | .clr | .ftBuild | .ndLeaf _ | .ndJoin _ _ | .trSet _ | .pqEnq _ | .pqDeq | .pqSize | .pqEmpty | .tbBuild | .cgGen
  | .bsAsm | .bpPack | .bpUnpack | .ccEncode | .ccParse | .bdDecode => []

/-- Neither CLR nor a composite command. -/
def isElementary (i : Instr) : Bool := i != .clr && (stagesOf i).isEmpty

/-- A check that raises an error lets through nothing but its negation. -/
theorem check_eq_ok {c : Prop} [Decidable c] {e : CmdError} {r : Except CmdError State} {u : State} :
    (if c then .error e else r) = .ok u ↔ ¬ c ∧ r = .ok u := by
  split <;> simp_all

theorem allocated_eq_true {s : State} {a : Nat} : s.allocated a = true ↔ a < s.node.length := decide_eq_true_iff

/-- The pseudocode of an elementary command that succeeds leaves its effect. -/
theorem effect_of_commandBody {i : Instr} {s u : State} (hi : isElementary i = true) (h : commandBody i s = .ok u) :
    Effect i s u := by
  cases i with
  | nop => obtain rfl := Except.ok.inj h; exact .nop
  | clr => contradiction
  | ftBuild =>
    obtain ⟨hlen, h⟩ := check_eq_ok.1 h
    obtain rfl := Except.ok.inj h
    exact .ftBuild (by simpa using hlen)
  | ndLeaf x =>
    obtain ⟨hweight, h⟩ := check_eq_ok.1 h
    obtain ⟨hfresh, h⟩ := check_eq_ok.1 h
    obtain rfl := Except.ok.inj h
    exact .ndLeaf hweight (by simpa using hfresh)
  | ndJoin a b =>
    simp only [commandBody, ndJoinBody, check_eq_ok, allocated_eq_true, Bool.or_eq_true, Bool.not_eq_true', not_or,
      Bool.not_eq_false, Bool.not_eq_true, Except.ok.injEq] at h
    obtain ⟨⟨ha, hb⟩, hne, ⟨hpa, hpb⟩, rfl⟩ := h
    exact .ndJoin ha hb hne hpa hpb
  | trSet a =>
    simp only [commandBody, trSetBody, check_eq_ok, allocated_eq_true, Bool.not_eq_true', Bool.not_eq_false, Bool.not_eq_true,
      Except.ok.injEq] at h
    obtain ⟨ha, hpa, rfl⟩ := h
    exact .trSet ha hpa
  | pqEnq a =>
    simp only [commandBody, pqEnqBody, check_eq_ok, allocated_eq_true, Bool.not_eq_true', Bool.not_eq_false,
      Except.ok.injEq] at h
    obtain ⟨ha, hcap, rfl⟩ := h
    exact .pqEnq ha hcap
  | pqDeq =>
    rcases hq : s.pq with _ | ⟨e, q⟩ <;> simp only [commandBody, pqDeqBody, hq, pqRemoveHead] at h
    · contradiction
    · obtain rfl := Except.ok.inj h
      exact .pqDeq hq
  | pqSize => obtain rfl := Except.ok.inj h; exact .pqSize
  | pqEmpty => obtain rfl := Except.ok.inj h; exact .pqEmpty
  | tbBuild =>
    obtain ⟨-, h⟩ := check_eq_ok.1 h
    rcases hq : (buildTree s.ft).2 with _ | ⟨e, q⟩ <;> simp only [hq, pqRemoveHead] at h
    · contradiction
    · obtain rfl := Except.ok.inj h
      exact .tbBuild hq
  | cgGen =>
    simp only [commandBody, cgGenBody] at h
    split at h
    · next htree => obtain rfl := Except.ok.inj h; exact .cgGen htree
    · contradiction
  | bsAsm =>
    simp only [commandBody, bsAsmBody, check_eq_ok, Bool.not_eq_true', Bool.not_eq_false, Bool.not_eq_true] at h
    obtain ⟨hct, hlen, h⟩ := h
    cases hbits : assembleBits s.ct s.cfg.bitCap s.input [] <;> simp only [hbits] at h
    · contradiction
    · obtain rfl := Except.ok.inj h
      exact .bsAsm hct hlen hbits
  | bpPack => obtain rfl := Except.ok.inj h; exact .bpPack
  | bpUnpack => obtain rfl := Except.ok.inj h; exact .bpUnpack
  | ccEncode =>
    obtain ⟨hfit, h⟩ := check_eq_ok.1 h
    obtain rfl := Except.ok.inj h
    exact .ccEncode (by omega)
  | ccParse =>
    obtain ⟨hlen, h⟩ := check_eq_ok.1 h
    cases hparse : parseContainer s.cfg.pbufSize s.input <;> simp only [hparse] at h
    · contradiction
    · obtain rfl := Except.ok.inj h
      exact .ccParse (by simpa using hlen) hparse
  | bdDecode =>
    simp only [commandBody, bdDecodeBody, check_eq_ok, Bool.not_eq_true', Bool.not_eq_false] at h
    obtain ⟨hct, hpad, h⟩ := h
    cases hout : decodeBits s.ct s.cfg.obufSize (s.bitbuf.take (s.bitbuf.length - s.pad)) 0 [] [] <;>
      simp only [hout] at h
    · contradiction
    · obtain rfl := Except.ok.inj h
      exact .bdDecode hct (by omega) hout
  | compress => contradiction
  | decompress => contradiction

/-- Stages that succeed leave their effects one after the other. -/
theorem effects_of_runStages {is : List Instr} (his : ∀ i ∈ is, isElementary i = true) {s u : State}
    (h : runStages (is.map commandBody) s = .ok u) : Effects is s u := by
  induction is generalizing s with
  | nil => obtain rfl := Except.ok.inj h; exact .nil
  | cons i is ih =>
    obtain ⟨t, hfirst, hrest⟩ := runStages_cons_ok.1 h
    exact .cons (effect_of_commandBody (his i List.mem_cons_self) hfirst)
      (ih (fun j hj => his j (List.mem_cons_of_mem i hj)) hrest)

/-- Everything a command that succeeds can do: the effect of an elementary command, the emptying of CLR, or the effects of the
stages of a composite command on the emptied block (R231, R233, R235). -/
theorem commandBody_cases {i : Instr} {s u : State} (h : commandBody i s = .ok u) :
    Effect i s u ∨ (i = .clr ∧ u = s.clearInstance.leaveError) ∨
      ((i = .compress ∨ i = .decompress) ∧ Effects (stagesOf i) s.clearInstance u) := by
  by_cases hi : isElementary i = true
  · exact .inl (effect_of_commandBody hi h)
  · cases i with
    | clr => exact .inr (.inl ⟨rfl, (Except.ok.inj h).symm⟩)
    | compress => exact .inr (.inr ⟨.inl rfl, effects_of_runStages (by decide) h⟩)
    | decompress => exact .inr (.inr ⟨.inr rfl, effects_of_runStages (by decide) h⟩)
    | _ => exact absurd rfl hi

/-- What every effect keeps, a chain of effects keeps. -/
theorem Effects.keeps {P : State → Prop} (heffect : ∀ i t v, Effect i t v → P t → P v) {is : List Instr} {s u : State}
    (h : Effects is s u) (hs : P s) : P u := by
  induction h with
  | nil => exact hs
  | cons hfirst _ ih => exact ih (heffect _ _ _ hfirst hs)

/-- What every effect and `clear_instance()` keep, and leaving the error state keeps, every command keeps. -/
theorem commandBody_keeps {P : State → Prop} (heffect : ∀ i t v, Effect i t v → P t → P v)
    (hclear : ∀ t, P t → P t.clearInstance) (hleave : ∀ t, P t → P t.leaveError) {i : Instr} {s u : State}
    (h : commandBody i s = .ok u) (hs : P s) : P u := by
  rcases commandBody_cases h with h | ⟨-, rfl⟩ | ⟨-, h⟩
  · exact heffect i s u h hs
  · exact hleave _ (hclear s hs)
  · exact h.keeps heffect (hclear s hs)

end Sys2Proof.Machine
end

section
/-! PROOFS. Which parts of the state which commands leave alone or write, from the effects of the commands: the host's part of the
state, the result registers, the valid flags and the bytes of the memories. -/

namespace Sys2Proof.Machine

/-! ### The part of the state outside the block's structures -/

/-- What is left of a state without what `clear_instance()` empties and without the bytes of PBUF and OBUF. -/
def State.hostPart (s : State) : State := { s.clearInstance with pbuf := [], obuf := [] }

theorem Effect.hostPart_eq {i : Instr} {s u : State} (h : Effect i s u) : u.hostPart = s.hostPart := by
  cases h <;> rfl

theorem Effects.hostPart_eq {is : List Instr} {s u : State} (h : Effects is s u) : u.hostPart = s.hostPart :=
  h.keeps (P := fun v => v.hostPart = s.hostPart) (fun _ _ _ hv ht => hv.hostPart_eq.trans ht) rfl

/-- No command but CLR changes anything outside the block's structures before it completes (R31, R33, R48, R73). -/
theorem hostPart_of_commandBody {i : Instr} (hi : i ≠ .clr) {s u : State} (h : commandBody i s = .ok u) :
    u.hostPart = s.hostPart := by
  rcases commandBody_cases h with h | ⟨rfl, -⟩ | ⟨-, h⟩
  · exact h.hostPart_eq
  · contradiction
  · exact h.hostPart_eq

/-- What the host owns and CLR, too, leaves alone: two states with the same such part. -/
abbrev sameHostState (s t : State) : Prop :=
  t.ibuf = s.ibuf ∧ t.inLen = s.inLen ∧ t.arg0 = s.arg0 ∧ t.ie = s.ie ∧ t.cfg = s.cfg ∧ t.epoch = s.epoch ∧
    t.draws = s.draws ∧ t.port = s.port ∧ t.resp = s.resp

theorem sameHostState_of_hostPart {s t : State} (h : t.hostPart = s.hostPart) : sameHostState s t := by
  have hparts : sameHostState s.hostPart t.hostPart := by simp [sameHostState, h]
  exact hparts

theorem sameHostState_of_commandBody {i : Instr} {s u : State} (h : commandBody i s = .ok u) : sameHostState s u := by
  by_cases hi : i = .clr
  · subst hi
    obtain rfl := Except.ok.inj h
    simp [sameHostState]
  · exact sameHostState_of_hostPart (hostPart_of_commandBody hi h)

theorem sameHostState_of_exec {i : Instr} {s t : State} (h : exec i s = .next t) : sameHostState s t := by
  rcases exec_cases h with ⟨u, hu, rfl⟩ | ⟨e, -, rfl⟩
  · have hbody : sameHostState s u := sameHostState_of_commandBody hu
    exact hbody
  · simp [sameHostState]

/-- DONE after a command tells success from error (R27). -/
theorem commandBody_ok_of_done {i : Instr} {s t : State} (h : exec i s = .next t) (hdone : t.done = true) :
    ∃ u, commandBody i s = .ok u ∧ t = u.complete := by
  rcases exec_cases h with hok | ⟨e, -, rfl⟩
  · exact hok
  · contradiction

theorem errorEntry_of_not_done {i : Instr} {s t : State} (h : exec i s = .next t) (hdone : t.done = false) :
    ∃ e, t = s.errorEntry e := by
  rcases exec_cases h with ⟨u, -, rfl⟩ | ⟨e, -, rfl⟩
  · contradiction
  · exact ⟨e, rfl⟩

/-- Settles O53: a command's effects leave everything outside the structures alone; CLR and the error entry are written out. -/
theorem commandsKeepHostState : Obligations.CommandsKeepHostState := by
  intro i s t h
  refine ⟨sameHostState_of_exec h, fun hi => ?_, fun hi hdone => ?_⟩
  · rcases exec_cases h with ⟨u, hu, rfl⟩ | ⟨e, -, rfl⟩
    · have hovr : u.hostPart.ovr = s.hostPart.ovr := by rw [hostPart_of_commandBody hi hu]
      exact hovr
    · rfl
  · obtain ⟨u, hu, rfl⟩ := commandBody_ok_of_done h hdone
    have hcode : u.hostPart.errCode = s.hostPart.errCode := by rw [hostPart_of_commandBody hi hu]
    have hinfo : u.hostPart.errInfo = s.hostPart.errInfo := by rw [hostPart_of_commandBody hi hu]
    exact ⟨hcode, hinfo⟩

/-! ### Commands and the registers IE and ARG0 -/

/-- The state with other values of CTRL.IE and ARG0. -/
def State.withHostRegs (s : State) (b : Bool) (v : Word) : State := { s with ie := b, arg0 := v }

@[simp] theorem State.withHostRegs_ft (s : State) (b : Bool) (v : Word) : (s.withHostRegs b v).ft = s.ft := rfl
@[simp] theorem State.withHostRegs_pq (s : State) (b : Bool) (v : Word) : (s.withHostRegs b v).pq = s.pq := rfl
@[simp] theorem State.withHostRegs_ct (s : State) (b : Bool) (v : Word) : (s.withHostRegs b v).ct = s.ct := rfl
@[simp] theorem State.withHostRegs_pad (s : State) (b : Bool) (v : Word) : (s.withHostRegs b v).pad = s.pad := rfl
@[simp] theorem State.withHostRegs_bitbuf (s : State) (b : Bool) (v : Word) : (s.withHostRegs b v).bitbuf = s.bitbuf := rfl
@[simp] theorem State.withHostRegs_cfg (s : State) (b : Bool) (v : Word) : (s.withHostRegs b v).cfg = s.cfg := rfl
@[simp] theorem State.withHostRegs_input (s : State) (b : Bool) (v : Word) : (s.withHostRegs b v).input = s.input := rfl

theorem check_map {c : Prop} [Decidable c] {e : CmdError} {r r' : Except CmdError State} {f : State → State}
    (h : r' = r.map f) : (if c then .error e else r') = (if c then .error e else r).map f := by
  split
  · rfl
  · exact h

theorem guard_map {c : Prop} [Decidable c] {e : CmdError} {r r' : Except CmdError State} {f : State → State}
    (h : r' = r.map f) : (if c then r' else .error e) = (if c then r else .error e).map f := by
  split
  · exact h
  · rfl

/-- IE and ARG0 do not reach an elementary command, but for the weight of ND_LEAF (R21, R31). -/
theorem commandBody_withHostRegs_of_elementary {i : Instr} (hi : isElementary i = true) (s : State) (b : Bool) {v : Word}
    (hv : (∃ x, i = .ndLeaf x) → v = s.arg0) :
    commandBody i (s.withHostRegs b v) = (commandBody i s).map (fun u => u.withHostRegs b v) := by
  cases i with
  | nop | pqSize | pqEmpty | bpPack | bpUnpack => rfl
  | clr | compress | decompress => contradiction
  | ftBuild | ccEncode => exact check_map rfl
  | trSet a | pqEnq a => exact check_map (check_map rfl)
  | ndJoin a b => exact check_map (check_map (check_map rfl))
  | ndLeaf x =>
    obtain rfl := hv ⟨x, rfl⟩
    exact check_map (check_map rfl)
  | pqDeq =>
    simp only [commandBody, pqDeqBody, State.withHostRegs_pq]
    cases pqRemoveHead s.pq <;> rfl
  | tbBuild =>
    refine check_map ?_
    simp only [State.withHostRegs_ft]
    cases pqRemoveHead (buildTree s.ft).2 <;> rfl
  | cgGen => exact guard_map rfl
  | bsAsm =>
    refine check_map (check_map ?_)
    simp only [State.withHostRegs_ct, State.withHostRegs_cfg, State.withHostRegs_input]
    cases assembleBits s.ct s.cfg.bitCap s.input [] <;> rfl
  | ccParse =>
    refine check_map ?_
    simp only [State.withHostRegs_cfg, State.withHostRegs_input]
    cases parseContainer s.cfg.pbufSize s.input <;> rfl
  | bdDecode =>
    refine check_map (check_map ?_)
    simp only [State.withHostRegs_ct, State.withHostRegs_cfg, State.withHostRegs_bitbuf, State.withHostRegs_pad]
    cases decodeBits s.ct s.cfg.obufSize (s.bitbuf.take (s.bitbuf.length - s.pad)) 0 [] [] <;> rfl

/-- Stages that another value of IE and ARG0 does not reach are not reached by it together. -/
theorem runStages_map {f : State → State} {fs : List (State → Except CmdError State)}
    (hfs : ∀ g ∈ fs, ∀ t, g (f t) = (g t).map f) (s : State) : runStages fs (f s) = (runStages fs s).map f := by
  induction fs generalizing s with
  | nil => rfl
  | cons g fs ih =>
    simp only [runStages, hfs g List.mem_cons_self s]
    cases g s with
    | error e => rfl
    | ok t => exact ih (fun k hk => hfs k (List.mem_cons_of_mem g hk)) t

theorem runStages_withHostRegs {is : List Instr} (his : ∀ i ∈ is, isElementary i = true ∧ ∀ x, i ≠ .ndLeaf x) (s : State)
    (b : Bool) (v : Word) :
    runStages (is.map commandBody) (s.withHostRegs b v) =
      (runStages (is.map commandBody) s).map (fun u => u.withHostRegs b v) := by
  refine runStages_map (f := fun u => u.withHostRegs b v) (fun g hg t => ?_) s
  obtain ⟨i, hi, rfl⟩ := List.mem_map.1 hg
  exact commandBody_withHostRegs_of_elementary (his i hi).1 t b fun ⟨x, hx⟩ => absurd hx ((his i hi).2 x)

/-- IE reaches no command, and ARG0 none but ND_LEAF (R21, R31). -/
theorem commandBody_withHostRegs {i : Instr} (s : State) (b : Bool) {v : Word} (hv : (∃ x, i = .ndLeaf x) → v = s.arg0) :
    commandBody i (s.withHostRegs b v) = (commandBody i s).map (fun u => u.withHostRegs b v) := by
  by_cases hi : isElementary i = true
  · exact commandBody_withHostRegs_of_elementary hi s b hv
  · cases i with
    | clr => rfl
    | compress => exact runStages_withHostRegs (is := stagesOf .compress) (by simp [stagesOf, isElementary]) s.clearInstance b v
    | decompress => exact runStages_withHostRegs (is := stagesOf .decompress) (by simp [stagesOf, isElementary]) s.clearInstance b v
    | _ => exact absurd rfl hi

theorem exec_withHostRegs {i : Instr} {s t : State} (b : Bool) {v : Word} (hv : (∃ x, i = .ndLeaf x) → v = s.arg0)
    (h : exec i s = .next t) : exec i (s.withHostRegs b v) = .next (t.withHostRegs b v) := by
  rw [exec_eq_finish, commandBody_withHostRegs s b hv]
  rcases exec_cases h with ⟨u, hu, rfl⟩ | ⟨e, he, rfl⟩
  · rw [hu]; rfl
  · rw [he]; rfl

/-! ### The result registers -/

theorem Effect.results_eq {i : Instr} {s u : State} (h : Effect i s u) (hi : writesResult i = false) :
    u.res0 = s.res0 ∧ u.res1 = s.res1 ∧ u.res2 = s.res2 := by
  cases h <;> simp [writesResult] at hi ⊢

theorem Effects.results_eq {is : List Instr} {s u : State} (h : Effects is s u) (his : ∀ i ∈ is, writesResult i = false) :
    u.res0 = s.res0 ∧ u.res1 = s.res1 ∧ u.res2 = s.res2 := by
  induction h with
  | nil => exact ⟨rfl, rfl, rfl⟩
  | cons hfirst _ ih =>
    obtain ⟨h0, h1, h2⟩ := ih fun j hj => his j (List.mem_cons_of_mem _ hj)
    obtain ⟨k0, k1, k2⟩ := hfirst.results_eq (his _ List.mem_cons_self)
    exact ⟨h0.trans k0, h1.trans k1, h2.trans k2⟩

/-- CLR, COMPRESS and DECOMPRESS leave the result registers at 0: no stage of a composite command writes them. -/
theorem results_of_clearsResults {i : Instr} {s u : State} (h : commandBody i s = .ok u) (hi : clearsResults i = true) :
    u.res0 = 0 ∧ u.res1 = 0 ∧ u.res2 = 0 := by
  rcases commandBody_cases h with h | ⟨-, rfl⟩ | ⟨rfl | rfl, h⟩
  · cases h <;> contradiction
  · exact ⟨rfl, rfl, rfl⟩
  · exact h.results_eq (by decide)
  · exact h.results_eq (by decide)

/-- Settles O51: the effects of the other commands leave the result registers alone, and ARG0 reaches ND_LEAF only. -/
theorem resultRegistersWrittenOnlyByRule : Obligations.ResultRegistersWrittenOnlyByRule := by
  intro i s t h
  obtain ⟨-, -, harg0, hie, -⟩ := sameHostState_of_exec h
  refine ⟨fun hdone => ?_, fun hdone hi => ?_, fun hdone hclears hwrites => ?_, harg0, fun v hi => ?_⟩
  · obtain ⟨e, rfl⟩ := errorEntry_of_not_done h hdone
    exact ⟨rfl, rfl, rfl⟩
  · obtain ⟨u, hu, rfl⟩ := commandBody_ok_of_done h hdone
    have hzero : u.res0 = 0 ∧ u.res1 = 0 ∧ u.res2 = 0 := results_of_clearsResults hu hi
    exact hzero
  · obtain ⟨u, hu, rfl⟩ := commandBody_ok_of_done h hdone
    rcases commandBody_cases hu with hu | ⟨rfl, -⟩ | ⟨rfl | rfl, -⟩
    · exact hu.results_eq hwrites
    · contradiction
    · contradiction
    · contradiction
  · have hmove : exec i { s with arg0 := v } = .next (t.withHostRegs s.ie v) :=
      exec_withHostRegs s.ie (fun ⟨x, hx⟩ => absurd hx (hi x)) h
    rw [hmove, ← hie]
    rfl

/-! ### The valid flags -/

theorem Effect.validFlags_eq {i : Instr} {s u : State} (h : Effect i s u) :
    u.treeValid = treeValidAfter i s.treeValid ∧ u.ctValid = ctValidAfter i s.ctValid := by
  cases h <;> exact ⟨rfl, rfl⟩

theorem Effects.validFlags_eq {is : List Instr} {s u : State} (h : Effects is s u) :
    u.treeValid = is.foldl (fun v i => treeValidAfter i v) s.treeValid ∧
      u.ctValid = is.foldl (fun v i => ctValidAfter i v) s.ctValid := by
  induction h with
  | nil => exact ⟨rfl, rfl⟩
  | cons hfirst _ ih =>
    obtain ⟨htree, hct⟩ := hfirst.validFlags_eq
    rwa [htree, hct] at ih

/-- Settles O52: each stage sets and clears the flags as R29 lists, and the composite commands as their stages do in turn. -/
theorem validFlagsFollowTheStages : Obligations.ValidFlagsFollowTheStages := by
  refine ⟨fun i s t h => ⟨fun hdone => ?_, fun hdone => ?_⟩, fun s => ⟨rfl, rfl⟩⟩
  · obtain ⟨u, hu, rfl⟩ := commandBody_ok_of_done h hdone
    rcases commandBody_cases hu with hu | ⟨rfl, rfl⟩ | ⟨rfl | rfl, hu⟩
    · exact hu.validFlags_eq
    · exact ⟨rfl, rfl⟩
    · exact hu.validFlags_eq
    · exact hu.validFlags_eq
  · obtain ⟨e, rfl⟩ := errorEntry_of_not_done h hdone
    exact ⟨rfl, rfl⟩

/-! ### The bytes of the memories -/

/-- The number of valid bytes that a command leaves in a memory: PK_LEN, OUT_LEN, and none in IBUF, which the host writes. -/
def State.validLen (s : State) : Buffer → Nat
  | .ibuf => 0
  | .obuf => s.outLen
  | .pbuf => s.pkLen

/-- The command stores into the memory (R46, R48, R49). -/
def storesIn : Buffer → Instr → Bool
  | .ibuf, _ => false
  | .obuf, i => storesObuf i
  | .pbuf, i => storesPbuf i

/-- A memory and the number of its valid bytes are as before. -/
abbrev keepsBytes (b : Buffer) (s u : State) : Prop := u.memory b = s.memory b ∧ u.validLen b = s.validLen b

/-- The valid bytes of a memory have been stored, from offset 0 on. -/
abbrev storesBytes (b : Buffer) (s u : State) : Prop :=
  ∃ bs, u.memory b = Memory.writeList (s.memory b) 0 bs ∧ u.validLen b = bs.length

theorem Effect.bytes_eq {i : Instr} {s u : State} (h : Effect i s u) (b : Buffer) :
    if storesIn b i then storesBytes b s u else keepsBytes b s u := by
  cases b with
  | ibuf => cases h <;> exact ⟨rfl, rfl⟩
  | obuf =>
    cases h with
    | ccEncode | bdDecode => exact ⟨_, rfl, rfl⟩
    | _ => exact ⟨rfl, rfl⟩
  | pbuf =>
    cases h with
    | bpPack | ccParse => exact ⟨_, rfl, rfl⟩
    | _ => exact ⟨rfl, rfl⟩

/-- Stages of which none stores keep the bytes, and stages of which one stores store once. -/
theorem Effects.bytes_eq {is : List Instr} {s u : State} (h : Effects is s u) (b : Buffer) :
    (is.countP (storesIn b) = 0 → keepsBytes b s u) ∧ (is.countP (storesIn b) = 1 → storesBytes b s u) := by
  induction h with
  | nil => exact ⟨fun _ => ⟨rfl, rfl⟩, fun h => by simp at h⟩
  | @cons i is s t u hfirst hrest ih =>
    have hi := hfirst.bytes_eq b
    cases hstores : storesIn b i with
    | false =>
      obtain ⟨hmem, hlen⟩ : keepsBytes b s t := by simpa [hstores] using hi
      rw [List.countP_cons_of_neg (by simp [hstores])]
      simpa only [keepsBytes, storesBytes, hmem, hlen] using ih
    | true =>
      obtain ⟨bs, hmem, hlen⟩ : storesBytes b s t := by simpa [hstores] using hi
      rw [List.countP_cons_of_pos hstores]
      refine ⟨fun h => by omega, fun h => ?_⟩
      obtain ⟨hmem', hlen'⟩ := ih.1 (by omega)
      exact ⟨bs, hmem'.trans hmem, hlen'.trans hlen⟩

/-- A command stores the valid bytes of a memory or leaves its bytes alone; one stage of a composite command stores into PBUF,
and one into OBUF. -/
theorem bytes_of_commandBody {i : Instr} {s u : State} (h : commandBody i s = .ok u) (b : Buffer) :
    (storesIn b i = false → u.memory b = s.memory b) ∧ (storesIn b i = true → storesBytes b s u) := by
  rcases commandBody_cases h with h | ⟨rfl, rfl⟩ | ⟨hi, h⟩
  · have hbytes := h.bytes_eq b
    cases hstores : storesIn b i <;> simp_all
  · cases b <;> exact ⟨fun _ => rfl, fun h => by contradiction⟩
  · obtain ⟨hkeep, hstore⟩ := h.bytes_eq b
    have hcount : (stagesOf i).countP (storesIn b) = if storesIn b i then 1 else 0 := by
      rcases hi with rfl | rfl <;> cases b <;> rfl
    exact ⟨fun hi => (hkeep (by simp [hcount, hi])).1, fun hi => hstore (by simp [hcount, hi])⟩

theorem byteAt_eq_of_memory {s t : State} {b : Buffer} (hepoch : t.epoch = s.epoch) (hmem : t.memory b = s.memory b)
    (a : Nat) : t.byteAt b a = s.byteAt b a := by
  simp [State.byteAt, hepoch, hmem]

theorem byteAt_eq_of_storesBytes {s t : State} {b : Buffer} (hepoch : t.epoch = s.epoch) (h : storesBytes b s t) {a : Nat}
    (ha : t.validLen b ≤ a) : t.byteAt b a = s.byteAt b a := by
  obtain ⟨bs, hmem, hlen⟩ := h
  simp only [State.byteAt, hepoch, hmem, Memory.read_writeList]
  rw [if_neg (by omega)]

/-- What a command does to the bytes of a memory, completion and error entry included. -/
theorem byteAt_of_exec {i : Instr} {s t : State} (h : exec i s = .next t) (b : Buffer) :
    (storesIn b i = false → ∀ a, t.byteAt b a = s.byteAt b a) ∧
      (storesIn b i = true → t.done = true → ∀ a, t.validLen b ≤ a → t.byteAt b a = s.byteAt b a) := by
  have hepoch : t.epoch = s.epoch := by simp [sameHostState_of_exec h]
  rcases exec_cases h with ⟨u, hu, rfl⟩ | ⟨e, -, rfl⟩
  · obtain ⟨hkeep, hstore⟩ := bytes_of_commandBody hu b
    have hmem : u.complete.memory b = u.memory b := by cases b <;> rfl
    have hlen : u.complete.validLen b = u.validLen b := by cases b <;> rfl
    refine ⟨fun hi => byteAt_eq_of_memory hepoch (hmem.trans (hkeep hi)), fun hi _ a ha => ?_⟩
    obtain ⟨bs, hbs⟩ := hstore hi
    exact byteAt_eq_of_storesBytes hepoch ⟨bs, hmem ▸ hlen ▸ hbs⟩ ha
  · exact ⟨fun _ => byteAt_eq_of_memory rfl (by cases b <;> rfl), fun _ hdone => absurd hdone (by simp)⟩

/-- Settles O54: a command changes bytes of a memory only by storing the valid ones, from offset 0 on. -/
theorem commandsKeepOtherBytes : Obligations.CommandsKeepOtherBytes := by
  intro i s t h
  obtain ⟨hibuf, -⟩ := byteAt_of_exec h .ibuf
  obtain ⟨hpbuf, hpbuf'⟩ := byteAt_of_exec h .pbuf
  obtain ⟨hobuf, hobuf'⟩ := byteAt_of_exec h .obuf
  exact ⟨hibuf rfl, hpbuf, hobuf, hpbuf', hobuf'⟩

end Sys2Proof.Machine
end

section
/-! PROOFS. The walk of CG_GEN (R171): how long the codes are that it assigns, and that a store that only grows keeps the codes of
its active tree. -/

namespace Sys2Proof.Machine

/-! ### One step of the walk -/

theorem walkTree_succ_leaf {nodes : List Node} {i w : Nat} {x : Byte} (n : Nat) (path : Bits) (ct : CodeTable)
    (hi : nodes[i]? = some (.leaf x w)) : walkTree nodes (n + 1) i path ct = ct.assign x path := by
  simp [walkTree, hi]

theorem walkTree_succ_internal {nodes : List Node} {i w l r : Nat} (n : Nat) (path : Bits) (ct : CodeTable)
    (hi : nodes[i]? = some (.internal w l r)) :
    walkTree nodes (n + 1) i path ct = walkTree nodes n r (path ++ [true]) (walkTree nodes n l (path ++ [false]) ct) := by
  simp [walkTree, hi]

theorem walkTree_succ_none {nodes : List Node} {i : Nat} (n : Nat) (path : Bits) (ct : CodeTable)
    (hi : nodes[i]? = none) : walkTree nodes (n + 1) i path ct = ct := by
  simp [walkTree, hi]

theorem genCodes_leaf {nodes : List Node} {root w : Nat} {x : Byte} (h : nodes[root]? = some (.leaf x w)) :
    genCodes nodes root = CodeTable.empty.assign x [false] := by
  simp [genCodes, h]

theorem genCodes_internal {nodes : List Node} {root w l r : Nat} (h : nodes[root]? = some (.internal w l r)) :
    genCodes nodes root = walkTree nodes nodes.length root [] CodeTable.empty := by
  simp [genCodes, h]

/-! ### Lengths of codes -/

/-- The number of internal nodes among the nodes of index below `n`. -/
def internalsBelow (nodes : List Node) (n : Nat) : Nat := (nodes.take n).countP (fun m => m.symbol?.isNone)

theorem internalsBelow_mono (nodes : List Node) {m n : Nat} (h : m ≤ n) : internalsBelow nodes m ≤ internalsBelow nodes n :=
  (List.take_sublist_take_left h).countP_le

theorem internalsBelow_succ {nodes : List Node} {i w l r : Nat} (hi : nodes[i]? = some (.internal w l r)) :
    internalsBelow nodes (i + 1) = internalsBelow nodes i + 1 := by
  simp [internalsBelow, List.take_add_one, hi, Node.symbol?]

/-- At most 255 nodes are internal: there are at most 256 leaves, and one leaf more than internal nodes. -/
theorem internalsBelow_le {nodes : List Node} (h : storeWf nodes) (n : Nat) : internalsBelow nodes n ≤ Config.codeMax := by
  have hcount : internalsBelow nodes nodes.length + leafCount nodes = nodes.length := by
    simp only [internalsBelow, leafCount, List.take_length, List.length_filterMap_eq_countP]
    simpa [add_comm, ← Option.isNone_iff_eq_none] using
      (List.length_eq_countP_add_countP (fun m : Node => m.symbol?.isSome) (l := nodes)).symm
  have hle : internalsBelow nodes n ≤ internalsBelow nodes nodes.length := by
    simpa [internalsBelow] using (List.take_sublist n nodes).countP_le (p := fun m : Node => m.symbol?.isNone)
  rcases eq_or_ne nodes [] with rfl | hne
  · simp [internalsBelow]
  · have := length_lt_two_mul_leafCount h hne
    have := leafCount_le h
    simp only [Config.codeMax]
    omega

/-- A code that the walk below node `i` assigns is a path to `i` with one bit more for each internal node on the way down, `i`
among them, each of a smaller index than the one before (R42). -/
theorem length_of_get_walkTree {nodes : List Node} (h : storeWf nodes) {x : Byte} {c : Bits} (n : Nat) :
    ∀ (i : Nat) (path : Bits) (ct : CodeTable), (walkTree nodes n i path ct).get x = some c →
      ct.get x = some c ∨
        (path.length ≤ c.length ∧ c.length ≤ path.length + internalsBelow nodes (i + 1) ∧
          ∀ w l r, nodes[i]? = some (.internal w l r) → path.length < c.length) := by
  induction n with
  | zero => exact fun i path ct hc => .inl hc
  | succ n ih =>
    intro i path ct hc
    rcases hi : nodes[i]? with _ | ⟨y, w⟩ | ⟨w, l, r⟩
    · rw [walkTree_succ_none n path ct hi] at hc
      exact .inl hc
    · rw [walkTree_succ_leaf n path ct hi, CodeTable.get_assign] at hc
      split at hc
      · obtain rfl := Option.some.inj hc
        exact .inr ⟨Nat.le_refl _, Nat.le_add_right _ _, fun _ _ _ hint => by simp at hint⟩
      · exact .inl hc
    · obtain ⟨hl, hr⟩ := children_lt_of_storeWf h hi
      have hli := internalsBelow_mono nodes (show l + 1 ≤ i from hl)
      have hri := internalsBelow_mono nodes (show r + 1 ≤ i from hr)
      rw [walkTree_succ_internal n path ct hi] at hc
      rw [internalsBelow_succ hi]
      rcases ih r (path ++ [true]) _ hc with hc | ⟨hlow, hhigh, -⟩
      · rcases ih l (path ++ [false]) ct hc with hc | ⟨hlow, hhigh, -⟩
        · exact .inl hc
        · simp only [List.length_append, List.length_singleton] at hlow hhigh
          exact .inr ⟨by omega, by omega, fun _ _ _ _ => by omega⟩
      · simp only [List.length_append, List.length_singleton] at hlow hhigh
        exact .inr ⟨by omega, by omega, fun _ _ _ _ => by omega⟩

/-- The codes of an active tree have 1 to CODE_MAX bits (R45, R172, R173). -/
theorem length_of_get_genCodes {nodes : List Node} {root : Nat} (h : storeWf nodes) {x : Byte} {c : Bits}
    (hc : (genCodes nodes root).get x = some c) : 1 ≤ c.length ∧ c.length ≤ Config.codeMax := by
  rcases hroot : nodes[root]? with _ | ⟨y, w⟩ | ⟨w, l, r⟩
  · simp [genCodes, hroot] at hc
  · rw [genCodes_leaf hroot, CodeTable.get_assign, CodeTable.get_empty] at hc
    obtain ⟨-, rfl⟩ : x = y ∧ [false] = c := by simpa using hc
    decide
  · rw [genCodes_internal hroot] at hc
    rcases length_of_get_walkTree h _ _ _ _ hc with hempty | ⟨-, hhigh, hlow⟩
    · simp at hempty
    · have := hlow w l r hroot
      have := internalsBelow_le h (root + 1)
      simp only [List.length_nil] at *
      omega

/-- Settles O32: a code is a path from the root, and at most 255 nodes are internal. -/
theorem codeLengthBounded : Obligations.CodeLengthBounded := by
  intro s t htree hstore _ hexec x c hc
  obtain ⟨u, hu, rfl⟩ : ∃ u, commandBody .cgGen s = .ok u ∧ t = u.complete := by
    rcases exec_cases hexec with hok | ⟨e, he, -⟩
    · exact hok
    · simp [commandBody, cgGenBody, htree] at he
  cases effect_of_commandBody rfl hu
  exact length_of_get_genCodes hstore hc

/-! ### A growing store -/

/-- A walk that does not run out of its bound depends neither on the bound nor on later nodes: the nodes on a path have falling
indices (R42). -/
theorem walkTree_append {nodes : List Node} (h : storeWf nodes) (more : List Node) (n : Nat) :
    ∀ (m i : Nat) (path : Bits) (ct : CodeTable), i < nodes.length → i < n → i < m →
      walkTree (nodes ++ more) m i path ct = walkTree nodes n i path ct := by
  induction n with
  | zero => exact fun m i path ct _ hn => absurd hn (Nat.not_lt_zero i)
  | succ n ih =>
    intro m i path ct hlen hn hm
    obtain ⟨m, rfl⟩ := Nat.exists_eq_add_of_lt hm
    have happ : (nodes ++ more)[i]? = nodes[i]? := List.getElem?_append_left hlen
    rcases hi : nodes[i]? with _ | ⟨y, w⟩ | ⟨w, l, r⟩
    · rw [walkTree_succ_none _ _ _ hi, walkTree_succ_none _ _ _ (happ.trans hi)]
    · rw [walkTree_succ_leaf _ _ _ hi, walkTree_succ_leaf _ _ _ (happ.trans hi)]
    · obtain ⟨hl, hr⟩ := children_lt_of_storeWf h hi
      rw [walkTree_succ_internal _ _ _ hi, walkTree_succ_internal _ _ _ (happ.trans hi),
        ih _ l _ _ (by omega) (by omega) (by omega), ih _ r _ _ (by omega) (by omega) (by omega)]

/-- New nodes leave the codes of an older root as they are. -/
theorem genCodes_append {nodes : List Node} (h : storeWf nodes) (more : List Node) {root : Nat} (hroot : root < nodes.length) :
    genCodes (nodes ++ more) root = genCodes nodes root := by
  have happ : (nodes ++ more)[root]? = nodes[root]? := List.getElem?_append_left hroot
  rcases hr : nodes[root]? with _ | ⟨x, w⟩ | ⟨w, l, r⟩
  · simp [genCodes, happ, hr]
  · rw [genCodes_leaf hr, genCodes_leaf (happ.trans hr)]
  · rw [genCodes_internal hr, genCodes_internal (happ.trans hr)]
    exact walkTree_append h more _ _ _ _ _ hroot hroot (by simp; omega)

end Sys2Proof.Machine
end

section
/-! PROOFS. The host port while no command runs: the address map leads to the register or byte meant (R66, R67), and what reads
and writes there answer and change (R25, R31, R36, R37, R68, R70). -/

namespace Sys2Proof.Machine

/-! ### The address map -/

theorem toNat_ofNat_of_lt {n : Nat} (h : n < 2 ^ 32) : (BitVec.ofNat 32 n).toNat = n := by
  rw [BitVec.toNat_ofNat, Nat.mod_eq_of_lt h]

theorem addressTarget_regAddr {c : Config} (hc : c.ok) {o : Nat} (ho : o < 0x1000) :
    addressTarget c (regAddr c o).toNat = .reg o ∧ (regAddr c o).toNat = c.regBase + o := by
  obtain ⟨-, -, -, -, ⟨hend, -, -⟩, -⟩ := hc
  simp only [Config.regBytes] at hend
  rw [regAddr, toNat_ofNat_of_lt (by omega)]
  simp [addressTarget, inWindow, Config.regBytes, ho]

theorem addressTarget_ibufAddr {c : Config} (hc : c.ok) {i : Nat} (hi : i < c.ibufSize) :
    addressTarget c (ibufAddr c i).toNat = .ibuf i := by
  obtain ⟨-, -, -, -, ⟨-, hend, -⟩, hreg, -⟩ := hc
  rw [ibufAddr, toNat_ofNat_of_lt (by omega), addressTarget, if_neg, if_pos]
  · simp
  · simp [inWindow, hi]
  · simp only [inWindow, Config.disjoint] at *; simp; omega

theorem addressTarget_obufAddr {c : Config} (hc : c.ok) {i : Nat} (hi : i < c.obufSize) :
    addressTarget c (obufAddr c i).toNat = .obuf i := by
  obtain ⟨-, -, -, -, ⟨-, -, hend⟩, -, hreg, hibuf⟩ := hc
  rw [obufAddr, toNat_ofNat_of_lt (by omega), addressTarget, if_neg, if_neg, if_pos]
  · simp
  · simp [inWindow, hi]
  · simp only [inWindow, Config.disjoint] at *; simp; omega
  · simp only [inWindow, Config.disjoint] at *; simp; omega

/-! ### Accesses to registers -/

theorem step_of_access {s : State} {a : Access} {rest : List PortEvent} (h : s.port = .access a :: rest) :
    step s = hostAccess a { s with port := rest } := by
  simp [step, h]

theorem regAccessOk_regAddr {c : Config} (hc : c.ok) {o : Nat} (ho : o < 0x1000) (halign : o % 4 = 0) :
    regAccessOk (regAddr c o).toNat 4 = true := by
  have haddr := (addressTarget_regAddr hc ho).2
  obtain ⟨-, -, -, ⟨hbase, -, -⟩, -⟩ := hc
  simp only [regAccessOk, haddr, beq_self_eq_true, Bool.true_and, beq_iff_eq]
  omega

/-- An aligned 32-bit read of the register window reads at the offset (R67). -/
theorem step_of_regRead {s : State} {rest : List PortEvent} {o : Nat} (hc : s.cfg.ok) (ho : o < 0x1000) (halign : o % 4 = 0)
    (h : s.port = .access (.read (regAddr s.cfg o) 4) :: rest) : step s = .next (({ s with port := rest } : State).readOffset o) := by
  rw [step_of_access h]
  simp [hostAccess, State.hostRead, (addressTarget_regAddr hc ho).1, regAccessOk_regAddr hc ho halign]

/-- An aligned 32-bit write of the register window writes at the offset (R67). -/
theorem step_of_regWrite {s : State} {rest : List PortEvent} {o : Nat} {v : Word} (hc : s.cfg.ok) (ho : o < 0x1000)
    (halign : o % 4 = 0) (h : s.port = .access (.write (regAddr s.cfg o) 4 v) :: rest) :
    step s = ({ s with port := rest } : State).writeOffset o v := by
  rw [step_of_access h]
  simp [hostAccess, State.hostWrite, (addressTarget_regAddr hc ho).1, regAccessOk_regAddr hc ho halign]

/-! ### The register map -/

@[simp] theorem regAt_offset (r : Reg) : regAt r.offset = some r := by cases r <;> rfl

theorem offset_lt (r : Reg) : r.offset < 0x04C := by cases r <;> decide

theorem offset_mod_four (r : Reg) : r.offset % 4 = 0 := by cases r <;> rfl

theorem regAt_eq_none {o : Nat} (ho : 0x04C ≤ o) : regAt o = none := by
  simp only [regAt, List.find?_eq_none, beq_iff_eq]
  intro r _ hr
  have := offset_lt r
  omega

/-- A register that the host may read now answers its value (R36, R77). -/
theorem step_of_regRead_offset {s : State} {rest : List PortEvent} (r : Reg) (hc : s.cfg.ok)
    (hfree : s.busy = false ∨ r.accessibleWhileBusy = true) (h : s.port = .access (.read (regAddr s.cfg r.offset) 4) :: rest) :
    step s = .next { s with port := rest, resp := some (.word (s.readReg r)) } := by
  have hlt := offset_lt r
  rw [step_of_regRead hc (by omega) (offset_mod_four r) h, State.readOffset, regAt_offset]
  have hgo : ¬ (s.busy && !r.accessibleWhileBusy) = true := by rcases hfree with h | h <;> simp [h]
  have hreg : ({ s with port := rest } : State).readReg r = s.readReg r := by cases r <;> rfl
  exact congrArg Host.Outcome.next ((if_neg hgo).trans (hreg ▸ rfl))

/-- CTRL shows IE in bit 0 (R31). -/
theorem ctrlWord_eq (s : State) : s.ctrlWord = BitVec.ofNat 32 s.ie.toNat := by
  unfold State.ctrlWord
  cases s.ie <;> rfl

/-- ROOT reads 0 without an active tree (R35). -/
theorem readReg_root (s : State) : s.readReg .root = if s.treeValid = true then BitVec.ofNat 32 s.root else 0#32 := by
  simp only [State.readReg]
  split <;> rfl

/-- Settles O8: each line of the map is a register with the value it reads. -/
theorem registerMapReads : Obligations.RegisterMapReads := by
  intro s rest o v hc hbusy hmem h
  rw [← ctrlWord_eq, ← readReg_root] at hmem
  have hmap : (o, v) ∈ Reg.all.map (fun r => (r.offset, s.readReg r)) := hmem
  obtain ⟨r, -, hr⟩ := List.mem_map.1 hmap
  obtain ⟨rfl, rfl⟩ := Prod.mk.inj hr
  exact step_of_regRead_offset r hc (.inl hbusy) h

/-- A register that the host may write now is written and the write acknowledged (R36, R70, R77). -/
theorem step_of_regWrite_offset {s : State} {rest : List PortEvent} {v : Word} (r : Reg) (hc : s.cfg.ok)
    (hfree : s.busy = false ∨ r.racesWhileBusy = false) (h : s.port = .access (.write (regAddr s.cfg r.offset) 4 v) :: rest) :
    step s = .next ((({ s with port := rest } : State).writeReg r v).answer .ack) := by
  have hlt := offset_lt r
  rw [step_of_regWrite hc (by omega) (offset_mod_four r) h, State.writeOffset, regAt_offset]
  have hgo : ¬ (s.busy && r.racesWhileBusy) = true := by rcases hfree with h | h <;> simp [h]
  exact if_neg hgo

/-- A write of CTRL keeps bit 0 only (R31). -/
theorem ctrlWord_of_ie {s : State} {v : Word} (h : s.ie = v.getLsbD 0) : s.ctrlWord = v &&& 1#32 := by
  rw [ctrlWord_eq, h, BitVec.and_one_eq_setWidth_ofBool_getLsbD]
  cases v.getLsbD 0 <;> rfl

/-- Settles O10: CTRL is IE alone, and IE reaches no command and no command changes it. -/
theorem ctrlHoldsOnlyInterruptEnable : Obligations.CtrlHoldsOnlyInterruptEnable := by
  refine ⟨fun s v rest hc h => ⟨_, step_of_regWrite_offset .ctrl hc (.inr rfl) h, rfl, ?_⟩, fun i s t b h => ?_, rfl⟩
  · refine Eq.trans (step_of_regRead_offset .ctrl hc (.inr rfl) (by rfl)) ?_
    rw [State.readReg, ctrlWord_of_ie (v := v) rfl]
  · obtain ⟨-, -, harg0, hie, -⟩ := sameHostState_of_exec h
    have hmove : exec i { s with ie := b } = .next (t.withHostRegs b s.arg0) := exec_withHostRegs b (fun _ => rfl) h
    rw [hmove, ← harg0]
    exact ⟨hie, rfl⟩

/-! ### Reserved offsets and read-only registers -/

/-- The registers whose host writes are ignored (R36). -/
def readOnlyRegs : List Reg := Reg.all.filter (fun r => r ∉ [.cmd, .ctrl, .arg0, .inLen])

theorem readOnlyOffsets_eq : readOnlyOffsets = readOnlyRegs.map Reg.offset := by decide

theorem writeReg_of_readOnly {r : Reg} (hr : r ∈ readOnlyRegs) (s : State) (v : Word) : s.writeReg r v = s := by
  cases r with
  | cmd | ctrl | arg0 | inLen => exact absurd hr (by decide)
  | _ => rfl

/-- Settles O11: no register stands at a reserved offset, and only CMD, CTRL, ARG0 and IN_LEN are written. -/
theorem reservedAndReadOnlyRegisters : Obligations.ReservedAndReadOnlyRegisters := by
  refine ⟨fun s rest o v hc hbusy ho halign => ⟨fun hres h => ?_, fun hro h => ?_⟩,
    fun s rest v hc hbusy => ⟨fun h => ?_, fun h => ?_⟩⟩
  · rw [step_of_regRead hc ho halign h, State.readOffset, regAt_eq_none hres]
    exact congrArg Host.Outcome.next (if_neg (Bool.eq_false_iff.1 hbusy))
  · rcases hro with hres | hro
    · rw [step_of_regWrite hc ho halign h, State.writeOffset, regAt_eq_none hres]
      rfl
    · rw [readOnlyOffsets_eq] at hro
      obtain ⟨r, hr, rfl⟩ := List.mem_map.1 hro
      rw [step_of_regWrite_offset r hc (.inl hbusy) h, writeReg_of_readOnly hr]
      rfl
  · exact step_of_regWrite_offset .arg0 hc (.inl hbusy) h
  · exact step_of_regWrite_offset .inLen hc (.inl hbusy) h

/-! ### Accesses to the buffer windows -/

/-- A byte written to the IBUF window while no command runs is stored (R68). -/
theorem step_of_ibufWrite {s : State} {rest : List PortEvent} {i : Nat} {v : Word} (hc : s.cfg.ok) (hbusy : s.busy = false)
    (hi : i < s.cfg.ibufSize) (h : s.port = .access (.write (ibufAddr s.cfg i) 1 v) :: rest) :
    step s = .next { s with port := rest, resp := some .ack, ibuf := Memory.write s.ibuf i (v.setWidth 8) } := by
  have hgo : ({ s with port := rest } : State).busy = false := hbusy
  rw [step_of_access h]
  simp [hostAccess, State.hostWrite, addressTarget_ibufAddr hc hi, hgo, State.answer]

/-- A byte of IBUF is read while no command runs (R68, R70). -/
theorem step_of_ibufRead {s : State} {rest : List PortEvent} {i : Nat} (hc : s.cfg.ok) (hbusy : s.busy = false)
    (hi : i < s.cfg.ibufSize) (h : s.port = .access (.read (ibufAddr s.cfg i) 1) :: rest) :
    step s = .next { s with port := rest, resp := some (.byte (s.byteAt .ibuf i)) } := by
  have hgo : ({ s with port := rest } : State).busy = false := hbusy
  have hbyte : ({ s with port := rest } : State).byteAt .ibuf i = s.byteAt .ibuf i := rfl
  rw [step_of_access h]
  simp [hostAccess, State.hostRead, addressTarget_ibufAddr hc hi, hgo, hbyte, State.answer]

/-- A valid byte of OBUF is read while no command runs (R49, R68, R70). -/
theorem step_of_obufRead {s : State} {rest : List PortEvent} {i : Nat} (hc : s.cfg.ok) (hbusy : s.busy = false)
    (hlen : i < s.outLen) (hi : i < s.cfg.obufSize) (h : s.port = .access (.read (obufAddr s.cfg i) 1) :: rest) :
    step s = .next { s with port := rest, resp := some (.byte (s.byteAt .obuf i)) } := by
  have hgo : ({ s with port := rest } : State).busy = false := hbusy
  have hbyte : ({ s with port := rest } : State).byteAt .obuf i = s.byteAt .obuf i := rfl
  rw [step_of_access h]
  simp [hostAccess, State.hostRead, addressTarget_obufAddr hc hi, hgo, hbyte, Nat.not_le_of_lt hlen, State.answer]

/-- A byte stored in a memory is the byte there, and every other one is as before (R9). -/
theorem byteAt_write (s : State) (i a : Nat) (b : Byte) :
    ({ s with ibuf := Memory.write s.ibuf i b } : State).byteAt .ibuf a = if a = i then b else s.byteAt .ibuf a := by
  simp only [State.byteAt, State.memory, Memory.read_write]
  split <;> rfl

/-- Settles O14: the address map leads to the byte of the window, and a write stores that byte alone. -/
theorem bufferWindowAccesses : Obligations.BufferWindowAccesses := by
  refine fun s rest i hc hbusy => ⟨fun v hi h => ⟨_, step_of_ibufWrite hc hbusy hi h, rfl, ?_, fun a ha => ?_⟩,
    step_of_ibufRead hc hbusy, step_of_obufRead hc hbusy⟩
  · exact (byteAt_write s i i _).trans ((if_pos rfl).trans (BitVec.setWidth_eq_extractLsb' (by decide)))
  · exact (byteAt_write s i a _).trans (if_neg ha)

/-! ### STATUS -/

/-- The flags of STATUS from bit 0 up (R25). -/
def State.statusFlags (s : State) : Fin 7 → Bool :=
  ![s.busy, s.done, s.err, s.treeValid, s.ctValid, s.pqEmpty, s.ovr]

theorem flagBit_eq (b : Bool) (n : Nat) : flagBit b n = b.toNat * 2 ^ n := by
  cases b <;> simp [flagBit]

theorem statusWord_eq (s : State) : s.statusWord = BitVec.ofNat 32 (Nat.ofBits s.statusFlags) := by
  rw [State.statusWord]
  congr 1
  simp [flagBit_eq, Nat.ofBits, State.statusFlags, Fin.foldr_succ]
  omega

theorem pqEmpty_eq (s : State) : s.pqEmpty = decide (s.pq.length = 0) := by
  unfold State.pqEmpty
  cases s.pq <;> rfl

theorem getLsbD_statusWord (s : State) (k : Fin 7) : s.statusWord.getLsbD k = s.statusFlags k := by
  rw [statusWord_eq, BitVec.getLsbD_ofNat, Nat.testBit_ofBits_lt _ _ k.isLt]
  simp
  omega

/-- Settles O9: STATUS is the number whose bits are the seven flags. -/
theorem statusFieldLayout : Obligations.StatusFieldLayout := by
  refine ⟨fun s => ⟨⟨?_, ?_, ?_, ?_, ?_, ?_, ?_⟩, fun k hk => ?_⟩, by decide⟩
  · exact getLsbD_statusWord s 0
  · exact getLsbD_statusWord s 1
  · exact getLsbD_statusWord s 2
  · exact getLsbD_statusWord s 3
  · exact getLsbD_statusWord s 4
  · exact (getLsbD_statusWord s 5).trans (pqEmpty_eq s)
  · exact getLsbD_statusWord s 6
  · rw [statusWord_eq, BitVec.getLsbD_ofNat, Nat.testBit_ofBits_ge _ _ hk, Bool.and_false]

/-! ### Reset and idling -/

theorem step_of_reset {s : State} {rest : List PortEvent} (h : s.port = .reset :: rest) :
    step s = .next ({ s with port := rest } : State).resetEvent := by
  simp [step, h]

/-- Settles O17: the reset event gives the reset state but for the model's own fields; an idle block keeps its state. -/
theorem resetEmptiesTheBlock : Obligations.ResetEmptiesTheBlock := by
  refine ⟨fun s rest h => ⟨_, step_of_reset h, ?_⟩, fun s rest hidle => ⟨fun h => ?_, fun h => ?_⟩⟩
  · exact ⟨by simp [State.resetEvent_eq, State.reset], ⟨rfl, rfl, rfl, CodeTable.get_empty, rfl, rfl, rfl, rfl⟩, rfl, rfl, rfl⟩
  · simp [step, h, sequencerStep, hidle]
  · simp [step, h, sequencerStep, hidle]

/-! ### Inputs that do not fit -/

/-- The error entry of PreconditionError(1) is that of R256. -/
theorem errorEntry_preconditionError_one (s : State) : s.errorEntry (preconditionError 1) = afterError s 6 1 := rfl

/-- Settles O21: the check of IN_LEN is the first of each command that reads IBUF, and of the first stage of a composite one. -/
theorem longInputRaisesError : Obligations.LongInputRaisesError := by
  intro s hlong
  have hcheck : s.inputTooLong = true := decide_eq_true hlong
  have hclear : s.clearInstance.inputTooLong = true := hcheck
  have hraise {i : Instr} (h : commandBody i s = .error (preconditionError 1)) : exec i s = .next (afterError s 6 1) := by
    rw [exec_eq_finish, h]
    rfl
  refine ⟨hraise ?_, hraise ?_, hraise ?_, hraise ?_, fun hct => hraise ?_⟩
  · exact if_pos hcheck
  · exact if_pos hcheck
  · exact runStages_cons_error.2 (.inl (if_pos hclear))
  · exact runStages_cons_error.2 (.inl (if_pos hclear))
  · simp [commandBody, bsAsmBody, hct, hcheck]

end Sys2Proof.Machine
end

section
/-! PROOFS. Everything one step can do, said once, as the invariants need it: what the host's accesses change, what the sequencer
does, and reset. First use: the error state (R27, R28, R32, R256, R258). -/

namespace Sys2Proof.Machine

/-! ### What a host access changes -/

/-- `HostEffect s u`: an access the port takes changes `s` to `u`, but for the port's answer and the count of free values. Beside
STATUS.OVR and CTRL, only an idle block is changed (R28, R68, R70, R286, R287). -/
inductive HostEffect (s : State) : State → Prop
  | none : HostEffect s s
  | overrun : HostEffect s { s with ovr := true }
  | issue (w : Word) (hidle : s.busy = false) (hop : s.err = false ∨ fieldOp w = Opcode.clr.code) : HostEffect s (s.accept w)
  | ctrl (v : Word) : HostEffect s (s.writeCtrl v)
  | arg0 (v : Word) (hidle : s.busy = false) : HostEffect s { s with arg0 := v }
  | inLen (v : Word) (hidle : s.busy = false) : HostEffect s { s with inLen := v }
  | ibuf (i : Nat) (b : Byte) (hidle : s.busy = false) (hi : i < s.cfg.ibufSize) :
      HostEffect s { s with ibuf := Memory.write s.ibuf i b }

/-- The state but for the port's answer and the count of free values that reads have drawn. -/
def State.answered (u : State) (r : Option PortResp) (n : Nat) : State := { u with resp := r, draws := n }

theorem writeCmd_cases (s : State) (w : Word) : HostEffect s (s.writeCmd w) := by
  unfold State.writeCmd
  split
  · exact .overrun
  · next hidle =>
    split
    · exact .none
    · next hop =>
      refine .issue w (by simpa using hidle) ?_
      cases herr : s.err <;> simp_all

theorem writeReg_cases (s : State) (r : Reg) (v : Word) (hfree : ¬ (s.busy && r.racesWhileBusy) = true) :
    HostEffect s (s.writeReg r v) := by
  cases r with
  | cmd => exact writeCmd_cases s v
  | ctrl => exact .ctrl v
  | arg0 => exact .arg0 v (by simpa [Reg.racesWhileBusy] using hfree)
  | inLen => exact .inLen v (by simpa [Reg.racesWhileBusy] using hfree)
  | _ => exact .none

theorem addressTarget_ibuf {c : Config} {addr i : Nat} (h : addressTarget c addr = .ibuf i) : i < c.ibufSize := by
  simp only [addressTarget, inWindow, Bool.and_eq_true, decide_eq_true_eq] at h
  split at h
  · contradiction
  · split at h
    · obtain rfl := Target.ibuf.inj h; omega
    · split at h <;> contradiction

theorem readOffset_eq_answered (s : State) (o : Nat) : ∃ r n, s.readOffset o = s.answered r n := by
  unfold State.readOffset
  split
  · split <;> exact ⟨_, _, rfl⟩
  · split <;> exact ⟨_, _, rfl⟩

/-- A read changes nothing but the answer and the count (R70). -/
theorem hostRead_eq_answered (s : State) (addr : Word) (bytes : Nat) : ∃ r n, s.hostRead addr bytes = s.answered r n := by
  unfold State.hostRead
  split
  · split
    · exact readOffset_eq_answered s _
    · exact ⟨_, _, rfl⟩
  · split
    · exact ⟨_, _, rfl⟩
    · split <;> exact ⟨_, _, rfl⟩
  · split
    · exact ⟨_, _, rfl⟩
    · split <;> exact ⟨_, _, rfl⟩
  · exact ⟨_, _, rfl⟩

theorem writeOffset_cases {s t : State} {o : Nat} {v : Word} (h : s.writeOffset o v = .next t) :
    ∃ u r n, HostEffect s u ∧ t = u.answered r n := by
  unfold State.writeOffset at h
  split at h
  · next r hr =>
    split at h
    · contradiction
    · next hfree =>
      obtain rfl := Host.Outcome.next.inj h
      exact ⟨_, _, _, writeReg_cases s r v hfree, rfl⟩
  · obtain rfl := Host.Outcome.next.inj h
    exact ⟨s, _, _, .none, rfl⟩

/-- Everything a host access can do. -/
theorem hostAccess_cases {a : Access} {s t : State} (h : hostAccess a s = .next t) :
    ∃ u r n, HostEffect s u ∧ t = u.answered r n := by
  cases a with
  | read addr bytes =>
    obtain ⟨r, n, hread⟩ := hostRead_eq_answered s addr bytes
    obtain rfl := Host.Outcome.next.inj h
    exact ⟨s, r, n, .none, hread⟩
  | write addr bytes v =>
    simp only [hostAccess, State.hostWrite] at h
    split at h
    · split at h
      · exact writeOffset_cases h
      · obtain rfl := Host.Outcome.next.inj h
        exact ⟨s, _, _, .none, rfl⟩
    · next i hi =>
      split at h
      · obtain rfl := Host.Outcome.next.inj h
        exact ⟨s, _, _, .none, rfl⟩
      · split at h
        · contradiction
        · next hidle =>
          obtain rfl := Host.Outcome.next.inj h
          exact ⟨_, _, _, .ibuf i _ (by simpa using hidle) (addressTarget_ibuf hi), rfl⟩
    · obtain rfl := Host.Outcome.next.inj h
      exact ⟨s, _, _, .none, rfl⟩
    · obtain rfl := Host.Outcome.next.inj h
      exact ⟨s, _, _, .none, rfl⟩

/-! ### What a step does -/

/-- `StepEffect s t`: a step takes `s`, whose port event has been taken, to `t`. -/
inductive StepEffect (s : State) : State → Prop
  | reset : StepEffect s s.resetEvent
  | idle (hidle : s.running = none) : StepEffect s s
  | access {u} (r : Option PortResp) (n : Nat) (h : HostEffect s u) : StepEffect s (u.answered r n)
  | completes {w i u} (hrun : s.running = some w) (hdec : decode w = .ok i) (h : commandBody i s = .ok u) :
      StepEffect s u.complete
  | raises {w} (e : CmdError) (hrun : s.running = some w) : StepEffect s (s.errorEntry e)

/-- The sequencer idles, or the running word completes or raises an error (R90, R95). -/
theorem sequencerStep_cases {s t : State} (h : sequencerStep s = .next t) : StepEffect s t := by
  unfold sequencerStep at h
  split at h
  · next w hrun =>
    unfold runWord at h
    split at h
    · obtain rfl := Host.Outcome.next.inj h
      exact .raises _ hrun
    · next i hdec =>
      rcases exec_cases h with ⟨u, hu, rfl⟩ | ⟨e, -, rfl⟩
      · exact .completes hrun hdec hu
      · exact .raises e hrun
  · next hidle =>
    obtain rfl := Host.Outcome.next.inj h
    exact .idle hidle

/-- Everything a step can do: the port event is taken, and then one of the effects follows. -/
theorem step_cases {s t : State} (h : step s = .next t) : ∃ p, StepEffect { s with port := p } t := by
  unfold step at h
  split at h
  · next hport => exact ⟨[], hport ▸ sequencerStep_cases h⟩
  · exact ⟨_, sequencerStep_cases h⟩
  · obtain ⟨u, r, n, heffect, rfl⟩ := hostAccess_cases h
    exact ⟨_, .access r n heffect⟩
  · obtain rfl := Host.Outcome.next.inj h
    exact ⟨_, .reset⟩

/-- A property of the block that does not read the port is kept by every step when it is kept by the host's accesses, by reset,
by a command that completes and by the error entry. -/
theorem step_keeps {Inv : State → Prop}
    (hport : ∀ s p r n, Inv s → Inv { s with port := p, resp := r, draws := n })
    (hhost : ∀ s u, HostEffect s u → Inv s → Inv u) (hreset : ∀ s, Inv s → Inv s.resetEvent)
    (hcomplete : ∀ s w i u, s.running = some w → decode w = .ok i → commandBody i s = .ok u → Inv s → Inv u.complete)
    (herror : ∀ s e, Inv s → Inv (s.errorEntry e)) {s t : State} (hs : Inv s) (hstep : step s = .next t) : Inv t := by
  obtain ⟨p, heffect⟩ := step_cases hstep
  have hs : Inv { s with port := p } := hport s p s.resp s.draws hs
  cases heffect with
  | reset => exact hreset _ hs
  | idle => exact hs
  | @access u r n haccess => exact hport u u.port r n (hhost _ u haccess hs)
  | completes hrun hdec hbody => exact hcomplete _ _ _ _ hrun hdec hbody hs
  | raises e => exact herror _ e hs

/-! ### The error state -/

theorem code_mem_range (k : ErrKind) : 1 ≤ k.code.toNat ∧ k.code.toNat ≤ 8 := by cases k <;> decide

/-- A word with CLR's opcode is CLR or illegal (R93, R95). -/
theorem eq_clr_of_decode {w : Word} {i : Instr} (hop : fieldOp w = Opcode.clr.code) (h : decode w = .ok i) : i = .clr := by
  have hrow : opcodeOf w = some .clr := by
    rw [opcodeOf, hop]
    rfl
  simp only [decode, hrow] at h
  split at h
  · exact (Except.ok.inj h).symm
  · contradiction

/-- The error entry leaves the error state as R256 and R258 describe it. -/
theorem errorStateWf_errorEntry (s : State) (e : CmdError) : (s.errorEntry e).errorStateWf :=
  ⟨fun _ => ⟨rfl, (code_mem_range e.kind).1, (code_mem_range e.kind).2, rfl, rfl⟩, fun h => by contradiction,
    fun h => by contradiction⟩

/-- A state with ERR 0, its error registers 0 and no command running. -/
theorem errorStateWf_of_no_error {s : State} (herr : s.err = false) (hcode : s.errCode = 0) (hinfo : s.errInfo = 0)
    (hidle : s.busy = false) : s.errorStateWf :=
  ⟨fun h => by simp [herr] at h, fun _ => ⟨hcode, hinfo⟩, fun h => by simp [hidle] at h⟩

/-- A command completes without an error: if ERR was 1 it is CLR (R258), and every other one leaves ERR and its registers. -/
theorem errorStateWf_complete {s u : State} {w : Word} {i : Instr} (hs : s.errorStateWf) (hrun : s.running = some w)
    (hdec : decode w = .ok i) (h : commandBody i s = .ok u) : u.complete.errorStateWf := by
  obtain ⟨hwith, hwithout, -⟩ := hs
  by_cases hi : i = .clr
  · subst hi
    obtain rfl := Except.ok.inj h
    exact errorStateWf_of_no_error rfl rfl rfl rfl
  · have herr : s.err = false := by
      rw [← Bool.not_eq_true]
      intro herr
      obtain ⟨-, -, -, -, hclr⟩ := hwith herr
      exact hi (eq_clr_of_decode (by simpa [State.runsOnlyClr, hrun, Opcode.code] using hclr) hdec)
    obtain ⟨hcode, hinfo⟩ := hwithout herr
    have hpart := hostPart_of_commandBody hi h
    have hkept : u.hostPart.err = s.hostPart.err ∧ u.hostPart.errCode = s.hostPart.errCode ∧
        u.hostPart.errInfo = s.hostPart.errInfo := by simp [hpart]
    obtain ⟨kerr, kcode, kinfo⟩ := hkept
    exact errorStateWf_of_no_error (kerr.trans herr) (kcode.trans hcode) (kinfo.trans hinfo) rfl

/-- An update of a field that neither the error state nor `clear_instance()` speaks of keeps the error state. -/
theorem errorStateWf_update {s : State} (f : State → State) (hs : s.errorStateWf)
    (hclear : (f s).clearInstance = f s.clearInstance) (hrun : (f s).running = s.running) (hdone : (f s).done = s.done)
    (herr : (f s).err = s.err) (hcode : (f s).errCode = s.errCode) (hinfo : (f s).errInfo = s.errInfo) :
    (f s).errorStateWf := by
  obtain ⟨hwith, hwithout, hbusy⟩ := hs
  simp only [State.errorStateWf, State.runsOnlyClr, State.busy, hrun, hdone, herr, hcode, hinfo, hclear]
  refine ⟨fun h => ?_, hwithout, hbusy⟩
  obtain ⟨hd, hlow, hhigh, hempty, hclr⟩ := hwith h
  exact ⟨hd, hlow, hhigh, congrArg f hempty, hclr⟩

theorem errorStateWf_hostEffect {s u : State} (h : HostEffect s u) (hs : s.errorStateWf) : u.errorStateWf := by
  cases h with
  | none => exact hs
  | overrun => exact errorStateWf_update (fun v => { v with ovr := true }) hs rfl rfl rfl rfl rfl rfl
  | issue w hidle hop =>
    obtain ⟨hwith, hwithout, -⟩ := hs
    refine ⟨fun herr => ?_, hwithout, fun _ => rfl⟩
    obtain ⟨-, hlow, hhigh, hempty, -⟩ := hwith herr
    refine ⟨rfl, hlow, hhigh, congrArg (fun v : State => v.accept w) hempty, ?_⟩
    rcases hop with hop | hop
    · rw [State.accept_err, hop] at herr
      contradiction
    · simp [State.runsOnlyClr, hop, Opcode.code]
  | ctrl v => exact errorStateWf_update (fun t => t.writeCtrl v) hs rfl rfl rfl rfl rfl rfl
  | arg0 v => exact errorStateWf_update (fun t => { t with arg0 := v }) hs rfl rfl rfl rfl rfl rfl
  | inLen v => exact errorStateWf_update (fun t => { t with inLen := v }) hs rfl rfl rfl rfl rfl rfl
  | ibuf i b => exact errorStateWf_update (fun t => { t with ibuf := Memory.write t.ibuf i b }) hs rfl rfl rfl rfl rfl rfl

/-- Settles O58: only a word with CLR's opcode is issued while ERR is 1, and it runs as CLR or raises an error. -/
theorem stepKeepsErrorState : Obligations.StepKeepsErrorState := by
  intro s t
  refine step_keeps (fun s p r n hs => ?_) (fun s u => errorStateWf_hostEffect) (fun s _ => ?_)
    (fun s w i u hrun hdec hbody hs => errorStateWf_complete hs hrun hdec hbody) (fun s e _ => errorStateWf_errorEntry s e)
  · exact errorStateWf_update (fun t => { t with port := p, resp := r, draws := n }) hs rfl rfl rfl rfl rfl rfl
  · exact errorStateWf_of_no_error rfl rfl rfl rfl

end Sys2Proof.Machine
end

section
/-! PROOFS. Frequency tables (R39): FT_BUILD and CC_PARSE make well-formed ones. -/

namespace Sys2Proof.Machine

/-! ### Counting -/

/-- The sum of the counts. -/
def countSum (ft : FreqTable) : Nat := (ft.map (fun p => p.2.toNat)).sum

theorem countSum_cons (x : Byte) (c : Word) (ft : FreqTable) : countSum ((x, c) :: ft) = c.toNat + countSum ft := rfl

/-- A word that is not the largest grows by one (R133: no count wraps). -/
theorem toNat_add_one {c : Word} (h : c.toNat + 1 < 2 ^ 32) : (c + 1).toNat = c.toNat + 1 :=
  (BitVec.toNat_add c 1).trans (Nat.mod_eq_of_lt h)

theorem countSum_countSymbol {ft : FreqTable} (x : Byte) (h : countSum ft + 1 < 2 ^ 32) :
    countSum (countSymbol ft x) = countSum ft + 1 := by
  induction ft with
  | nil => rfl
  | cons p ft ih =>
    obtain ⟨y, c⟩ := p
    rw [countSum_cons] at h
    simp only [countSymbol]
    split
    · rw [countSum_cons, countSum_cons, toNat_add_one (by omega)]
      omega
    · rw [countSum_cons, countSum_cons, ih (by omega)]
      omega

/-- Counting a symbol adds its key at the end, if it is new. -/
theorem keys_countSymbol (ft : FreqTable) (x : Byte) :
    (countSymbol ft x).map Prod.fst = if x ∈ ft.map Prod.fst then ft.map Prod.fst else ft.map Prod.fst ++ [x] := by
  induction ft with
  | nil => rfl
  | cons p ft ih =>
    obtain ⟨y, c⟩ := p
    simp only [countSymbol]
    split
    · next hyx => simp [hyx]
    · next hyx =>
      simp only [List.map_cons, ih, List.mem_cons, Ne.symm hyx, false_or]
      split <;> rfl

theorem zero_notMem_countSymbol {ft : FreqTable} (x : Byte) (h : countSum ft + 1 < 2 ^ 32) (h0 : 0#32 ∉ ft.map Prod.snd) :
    0#32 ∉ (countSymbol ft x).map Prod.snd := by
  induction ft with
  | nil => simp [countSymbol]
  | cons p ft ih =>
    obtain ⟨y, c⟩ := p
    rw [countSum_cons] at h
    simp only [List.map_cons, List.mem_cons, not_or] at h0
    obtain ⟨hc, hft⟩ := h0
    simp only [countSymbol]
    split
    · have hc' : (c + 1).toNat ≠ 0 := by rw [toNat_add_one (by omega)]; omega
      simp only [List.map_cons, List.mem_cons, not_or]
      exact ⟨fun h => hc' (h ▸ rfl), hft⟩
    · simp only [List.map_cons, List.mem_cons, not_or]
      exact ⟨hc, ih (by omega) hft⟩

theorem tableWf_countSymbol {ft : FreqTable} (x : Byte) (h : countSum ft + 1 < 2 ^ 32) (hft : tableWf ft) :
    tableWf (countSymbol ft x) := by
  obtain ⟨hnodup, h0⟩ := hft
  refine ⟨?_, zero_notMem_countSymbol x h h0⟩
  rw [keys_countSymbol]
  split
  · exact hnodup
  · next hx => exact hnodup.append (List.nodup_singleton x) (by simpa using hx)

/-- The table of an input of fewer than `2^32` symbols meets R39. -/
theorem tableWf_buildTable {xs : List Byte} (h : xs.length < 2 ^ 32) : tableWf (buildTable xs) := by
  have hloop : ∀ (xs : List Byte) (ft : FreqTable), tableWf ft → countSum ft + xs.length < 2 ^ 32 →
      tableWf (xs.foldl countSymbol ft) := by
    intro xs
    induction xs with
    | nil => exact fun ft hft _ => hft
    | cons x xs ih =>
      intro ft hft hsum
      rw [List.length_cons] at hsum
      exact ih _ (tableWf_countSymbol x (by omega) hft) (by rw [countSum_countSymbol x (by omega)]; omega)
  exact hloop xs [] tableWf_nil (by simpa [countSum] using h)

/-- The input has fewer than `2^32` bytes, as IN_LEN has 32 bits (R33). -/
theorem length_input_lt (s : State) : s.input.length < 2 ^ 32 := by
  simpa [State.input] using s.inLen.isLt

/-! ### Parsing -/

/-- The record loop takes no count of 0 and no symbol twice (R204). -/
theorem tableWf_deserRecords {bs : List Byte} {ft table : FreqTable} (hft : tableWf ft)
    (h : deserRecords bs ft = .ok table) : tableWf table := by
  fun_induction deserRecords bs ft with
  | case1 => contradiction
  | case2 => contradiction
  | case3 x b1 b2 b3 b4 rest ft hcount hfresh ih =>
    obtain ⟨hnodup, h0⟩ := hft
    refine ih ⟨?_, ?_⟩ h
    · rw [List.map_append]
      exact hnodup.append (List.nodup_singleton x) (by simpa using hfresh)
    · simpa [h0] using Ne.symm hcount
  | case4 =>
    obtain rfl := Except.ok.inj h
    exact hft

/-- The metadata line gives a padding digit from 0 to 7 (R206 step 4). -/
theorem pad_le_of_parseMeta {buf : List Byte} {m : MetaFields} (h : parseMeta buf = .ok m) : m.pad ≤ 7 := by
  unfold parseMeta at h
  split at h
  · contradiction
  · split at h
    · contradiction
    · unfold parsePadding at h
      split at h
      · contradiction
      · split at h
        · contradiction
        · split at h
          · contradiction
          · obtain rfl := Except.ok.inj h
            simp only
            omega

/-- What the segments of a container give (R206 steps 5 to 7): a table that meets R39, a header that lies in the input, and a
payload that fits PBUF. -/
theorem parseSegments_ok {n : Nat} {buf : List Byte} {m : MetaFields} {p : Parsed} (h : parseSegments n buf m = .ok p) :
    tableWf p.table ∧ p.hdrLen ≤ buf.length ∧ p.pad = m.pad ∧ p.payload.length ≤ n := by
  unfold parseSegments at h
  split at h
  · contradiction
  · next hlen =>
    split at h
    · contradiction
    · next table htable =>
      dsimp only at h
      split at h
      · contradiction
      · split at h
        · contradiction
        · next hfit =>
          obtain rfl := Except.ok.inj h
          refine ⟨?_, by simp only; omega, rfl, by simp only; omega⟩
          unfold deserTable at htable
          split at htable
          · contradiction
          · exact tableWf_deserRecords tableWf_nil htable

/-- What a container that CC_PARSE takes gives (R206). -/
theorem parseContainer_ok {n : Nat} {buf : List Byte} {p : Parsed} (h : parseContainer n buf = .ok p) :
    tableWf p.table ∧ p.hdrLen ≤ buf.length ∧ p.pad ≤ 7 ∧ p.payload.length ≤ n := by
  unfold parseContainer at h
  split at h
  · contradiction
  · next m hm =>
    obtain ⟨htable, hhdr, hpad, hpayload⟩ := parseSegments_ok h
    exact ⟨htable, hhdr, hpad ▸ pad_le_of_parseMeta hm, hpayload⟩

/-! ### Every command -/

/-- Every command keeps the frequency table well formed (R39). -/
theorem Effect.keeps_tableWf {i : Instr} {s u : State} (h : Effect i s u) (hs : tableWf s.ft) : tableWf u.ft := by
  cases h with
  | ftBuild => exact tableWf_buildTable (length_input_lt s)
  | ccParse hlen hparse => exact (parseContainer_ok hparse).1
  | _ => exact hs

end Sys2Proof.Machine
end

section
/-! PROOFS. The priority queue and TB_BUILD (R43, R140, R157): an enqueue keeps the queue sorted, and seeding and merging keep a
forest whose queued nodes are different roots. With these every command keeps FT, NODE, PQ and the active tree well formed. -/

namespace Sys2Proof.Machine

/-! ### The queue -/

/-- An entry passes the ones that are not heavier (R140). -/
theorem pqInsert_cons_of_le {x e : PqEntry} (q : List PqEntry) (h : x.weight ≤ e.weight) :
    pqInsert (x :: q) e = x :: pqInsert q e := by
  simp [pqInsert, h]

/-- An entry goes before the ones that are heavier (R140). -/
theorem pqInsert_of_lt {q : List PqEntry} {e : PqEntry} (h : ∀ x ∈ q, e.weight < x.weight) : pqInsert q e = e :: q := by
  have hcount : q.countP (fun x => decide (x.weight ≤ e.weight)) = 0 := by simpa [List.countP_eq_zero] using h
  simp [pqInsert, hcount]

theorem queueSorted_pqInsert {q : List PqEntry} (e : PqEntry) (h : queueSorted q) : queueSorted (pqInsert q e) := by
  induction q with
  | nil => exact List.pairwise_singleton _ e
  | cons x q ih =>
    obtain ⟨hx, hq⟩ := List.pairwise_cons.1 h
    by_cases hle : x.weight ≤ e.weight
    · rw [pqInsert_cons_of_le q hle]
      refine List.pairwise_cons.2 ⟨fun y hy => ?_, ih hq⟩
      rcases mem_pqInsert.1 hy with rfl | hy
      · exact hle
      · exact hx y hy
    · have hlt : ∀ y ∈ x :: q, e.weight < y.weight := by
        intro y hy
        rcases List.mem_cons.1 hy with rfl | hy
        · omega
        · have := hx y hy
          omega
      rw [pqInsert_of_lt hlt]
      exact List.pairwise_cons.2 ⟨fun y hy => Nat.le_of_lt (hlt y hy), h⟩

/-- The entries after an enqueue, up to order. -/
theorem pqInsert_perm (q : List PqEntry) (e : PqEntry) : (pqInsert q e).Perm (e :: q) := by
  simp only [pqInsert]
  refine List.perm_middle.trans ?_
  rw [List.take_append_drop]

/-- A store that only grows keeps the queue's entries those of allocated nodes. -/
theorem entry_append {nodes more : List Node} {e : PqEntry} (h : e.idx < nodes.length ∧ weightAt nodes e.idx = e.weight) :
    e.idx < (nodes ++ more).length ∧ weightAt (nodes ++ more) e.idx = e.weight := by
  obtain ⟨hlt, hw⟩ := h
  exact ⟨by simp; omega, (weightAt_append hlt).trans hw⟩

theorem queueWf_append {nodes more : List Node} {q : List PqEntry} (h : queueWf nodes q) : queueWf (nodes ++ more) q := by
  obtain ⟨hlen, hsort, hentries⟩ := h
  exact ⟨hlen, hsort, fun e he => entry_append (hentries e he)⟩

/-! ### New nodes -/

theorem fits_leaf {nodes : List Node} {x : Byte} {c : Word} (hc : c ≠ 0) (hfresh : hasLeaf nodes x = false) :
    (Node.leaf x c.toNat).fits nodes := by
  refine ⟨?_, c.isLt, hfresh⟩
  have : c.toNat ≠ 0 := fun h => hc (BitVec.eq_of_toNat_eq h)
  omega

theorem fits_joinNode {nodes : List Node} {a b : Nat} (ha : a < nodes.length) (hb : b < nodes.length) (hne : a ≠ b)
    (hpa : hasParent nodes a = false) (hpb : hasParent nodes b = false) : (joinNode nodes a b).fits nodes := by
  simp only [joinNode]
  split
  · exact ⟨hne, ha, hb, rfl, hpa, hpb⟩
  · exact ⟨hne.symm, hb, ha, by omega, hpb, hpa⟩

theorem weight_joinNode (nodes : List Node) (a b : Nat) :
    (joinNode nodes a b).weight = weightAt nodes a + weightAt nodes b := by
  simp only [joinNode]
  split <;> rfl

theorem isParentOf_joinNode {nodes : List Node} {a b i : Nat} (ha : a ≠ i) (hb : b ≠ i) :
    (joinNode nodes a b).isParentOf i = false := by
  simp only [joinNode]
  split <;> simp [Node.isParentOf, ha, hb]

/-! ### The forest of TB_BUILD -/

/-- The store and the queue while TB_BUILD runs: every entry is of a root of the store, of its weight, and no root is queued
twice. -/
structure ForestWf (nodes : List Node) (q : List PqEntry) : Prop where
  store : storeWf nodes
  sorted : queueSorted q
  entry : ∀ e ∈ q, e.idx < nodes.length ∧ weightAt nodes e.idx = e.weight
  root : ∀ e ∈ q, hasParent nodes e.idx = false
  distinct : (q.map PqEntry.idx).Nodup

/-- A new node that is no parent of a queued one may be queued. -/
theorem ForestWf.grow {nodes : List Node} {q : List PqEntry} {n : Node} {w : Nat} (h : ForestWf nodes q)
    (hn : n.fits nodes) (hw : w = n.weight) (hq : ∀ e ∈ q, n.isParentOf e.idx = false) :
    ForestWf (nodes ++ [n]) (pqInsert q ⟨w, nodes.length⟩) where
  store := storeWf_append.2 ⟨h.store, hn⟩
  sorted := queueSorted_pqInsert _ h.sorted
  entry e he := by
    rcases mem_pqInsert.1 he with rfl | he
    · simp [hw]
    · exact entry_append (h.entry e he)
  root e he := by
    rcases mem_pqInsert.1 he with rfl | he
    · have hroot := length_mem_rootsOf_append h.store hn
      exact (mem_rootsOf.1 hroot).2
    · rw [hasParent_append, h.root e he, hq e he]
      rfl
  distinct := by
    rw [((pqInsert_perm _ _).map _).nodup_iff]
    refine List.nodup_cons.2 ⟨fun hmem => ?_, h.distinct⟩
    obtain ⟨e, he, hidx⟩ := List.mem_map.1 hmem
    exact absurd hidx (h.entry e he).1.ne

theorem forestWf_nil : ForestWf [] [] := ⟨storeWf_nil, List.Pairwise.nil, by simp, by simp, List.nodup_nil⟩

/-- Step 1 of TB_BUILD makes one leaf per pair (R157). -/
theorem forestWf_seedLeaves {ft : FreqTable} {nodes : List Node} {q : List PqEntry} (hft : tableWf ft)
    (hfresh : ∀ x ∈ ft.map Prod.fst, hasLeaf nodes x = false) (h : ForestWf nodes q) :
    ForestWf (seedLeaves ft nodes q).1 (seedLeaves ft nodes q).2 := by
  induction ft generalizing nodes q with
  | nil => exact h
  | cons p ft ih =>
    obtain ⟨x, c⟩ := p
    obtain ⟨hnodup, h0⟩ := hft
    simp only [List.map_cons, List.nodup_cons, List.mem_cons, not_or] at hnodup h0 hfresh
    obtain ⟨hx, hnodup⟩ := hnodup
    obtain ⟨hc, h0⟩ := h0
    refine ih ⟨hnodup, h0⟩ (fun y hy => ?_) (h.grow (fits_leaf (Ne.symm hc) (hfresh x (.inl rfl))) rfl fun _ _ => rfl)
    have hyx : x ≠ y := fun hxy => hx (hxy ▸ hy)
    simp [hfresh y (.inr hy), Node.isLeafOf, hyx]

/-- Step 2 of TB_BUILD joins the two first entries, which are different roots (R157). -/
theorem forestWf_mergeQueue (n : Nat) {nodes : List Node} {q : List PqEntry} (h : ForestWf nodes q) :
    ForestWf (mergeQueue n nodes q).1 (mergeQueue n nodes q).2 := by
  induction n generalizing nodes q with
  | zero => exact h
  | succ n ih =>
    rcases q with _ | ⟨e, _ | ⟨f, q⟩⟩
    · exact h
    · exact h
    · have he := List.mem_cons_self (a := e) (l := f :: q)
      have hf := List.mem_cons_of_mem e (List.mem_cons_self (a := f) (l := q))
      obtain ⟨helt, hew⟩ := h.entry e he
      obtain ⟨hflt, hfw⟩ := h.entry f hf
      obtain ⟨heq, hdistinct⟩ := List.nodup_cons.1 h.distinct
      obtain ⟨hfq, hdistinct⟩ := List.nodup_cons.1 hdistinct
      have hef : e.idx ≠ f.idx := fun heq' => heq (by simp [heq'])
      have hrest : ForestWf nodes q :=
        ⟨h.store, h.sorted.of_cons.of_cons, fun x hx => h.entry x (by simp [hx]), fun x hx => h.root x (by simp [hx]),
          hdistinct⟩
      refine ih (hrest.grow (fits_joinNode helt hflt hef (h.root e he) (h.root f hf)) ?_ fun x hx => ?_)
      · rw [weight_joinNode, hew, hfw]
      · refine isParentOf_joinNode (fun hex => heq ?_) (fun hfx => hfq ?_)
        · exact hex ▸ List.mem_map_of_mem (List.mem_cons_of_mem f hx)
        · exact hfx ▸ List.mem_map_of_mem hx

theorem forestWf_buildTree {ft : FreqTable} (hft : tableWf ft) : ForestWf (buildTree ft).1 (buildTree ft).2 :=
  forestWf_mergeQueue _ (forestWf_seedLeaves hft (fun _ _ => rfl) forestWf_nil)

theorem length_seedLeaves (ft : FreqTable) (nodes : List Node) (q : List PqEntry) :
    (seedLeaves ft nodes q).2.length = q.length + ft.length := by
  induction ft generalizing nodes q with
  | nil => rfl
  | cons p ft ih =>
    rw [seedLeaves, ih, length_pqInsert, List.length_cons]
    omega

theorem length_mergeQueue_le (n : Nat) (nodes : List Node) (q : List PqEntry) :
    (mergeQueue n nodes q).2.length ≤ q.length := by
  induction n generalizing nodes q with
  | zero => exact Nat.le_refl _
  | succ n ih =>
    rcases q with _ | ⟨e, _ | ⟨f, q⟩⟩
    · exact Nat.le_refl _
    · exact Nat.le_refl _
    · refine (ih _ _).trans ?_
      rw [length_pqInsert]
      simp

/-- The queue of TB_BUILD never holds more entries than there are pairs. -/
theorem length_buildTree_le (ft : FreqTable) : (buildTree ft).2.length ≤ ft.length :=
  (length_mergeQueue_le _ _ _).trans (by simp [length_seedLeaves])

/-! ### Every command and every step -/

theorem length_table_le {ft : FreqTable} (h : tableWf ft) : ft.length ≤ Config.alphabet := by
  simpa using length_le_alphabet h.1

/-- A node that fits the store may be allocated (R152). -/
theorem structuresWf_allocate {s : State} {n : Node} (hs : s.structuresWf) (hn : n.fits s.node) :
    (s.allocate n).structuresWf := by
  obtain ⟨hft, hnode, hpq, hroot⟩ := hs
  exact ⟨hft, storeWf_append.2 ⟨hnode, hn⟩, queueWf_append hpq, fun h => by have := hroot h; simp; omega⟩

/-- A tree that TB_BUILD made is well formed, and its root is the last entry of the queue (R157). -/
theorem structuresWf_tbBuild {s : State} {e : PqEntry} {q : List PqEntry} (hft : tableWf s.ft)
    (hq : (buildTree s.ft).2 = e :: q) :
    ({ s with node := (buildTree s.ft).1, pq := q, root := e.idx, treeValid := true, ctValid := false } :
      State).structuresWf := by
  have hforest := forestWf_buildTree hft
  rw [hq] at hforest
  have hlen := length_buildTree_le s.ft
  have hcap := length_table_le hft
  rw [hq, List.length_cons] at hlen
  simp only [Config.alphabet] at hcap
  refine ⟨hft, hforest.store, ⟨by simp only [Config.pqCap]; omega, hforest.sorted.of_cons, fun x hx => ?_⟩, fun _ => ?_⟩
  · exact hforest.entry x (List.mem_cons_of_mem e hx)
  · exact (hforest.entry e List.mem_cons_self).1

theorem Effect.keeps_structuresWf {i : Instr} {s u : State} (h : Effect i s u) (hs : s.structuresWf) : u.structuresWf := by
  have hft := h.keeps_tableWf hs.1
  obtain ⟨-, hnode, hpq, hroot⟩ := hs
  cases h with
  | ftBuild => exact ⟨hft, hnode, hpq, fun h => by contradiction⟩
  | ndLeaf hweight hfresh => exact structuresWf_allocate ⟨hft, hnode, hpq, hroot⟩ (fits_leaf hweight hfresh)
  | ndJoin ha hb hne hpa hpb =>
    exact structuresWf_allocate ⟨hft, hnode, hpq, hroot⟩ (fits_joinNode ha hb hne hpa hpb)
  | trSet ha => exact ⟨hft, hnode, hpq, fun _ => ha⟩
  | @pqEnq _ a ha hcap =>
    obtain ⟨hlen, hsort, hentries⟩ := hpq
    refine ⟨hft, hnode, ⟨?_, queueSorted_pqInsert _ hsort, fun e he => ?_⟩, hroot⟩
    · rw [length_pqInsert]
      omega
    · rcases mem_pqInsert.1 he with rfl | he
      · exact ⟨ha, rfl⟩
      · exact hentries e he
  | pqDeq hq =>
    rw [hq] at hpq
    obtain ⟨hlen, hsort, hentries⟩ := hpq
    exact ⟨hft, hnode, ⟨Nat.le_of_succ_le hlen, hsort.of_cons, fun e he => hentries e (List.mem_cons_of_mem _ he)⟩, hroot⟩
  | tbBuild hq => exact structuresWf_tbBuild hft hq
  | ccParse => exact ⟨hft, hnode, hpq, fun h => by contradiction⟩
  | _ => exact ⟨hft, hnode, hpq, hroot⟩

theorem structuresWf_hostEffect {s u : State} (h : HostEffect s u) (hs : s.structuresWf) : u.structuresWf := by
  cases h <;> exact hs

theorem structuresWf_clearInstance (s : State) : s.clearInstance.structuresWf :=
  State.structuresWf_of_empty rfl rfl rfl rfl

/-- Settles O56: the effect of each command keeps the structures, and the other steps keep or empty them. -/
theorem stepKeepsStructures : Obligations.StepKeepsStructures := by
  intro s t
  refine step_keeps (fun _ _ _ _ hs => hs) (fun _ _ => structuresWf_hostEffect)
    (fun _ _ => State.structuresWf_of_empty rfl rfl rfl rfl) (fun s w i u _ _ hbody hs => ?_)
    (fun s e _ => structuresWf_clearInstance s)
  have hu : u.structuresWf := commandBody_keeps (fun _ _ _ => Effect.keeps_structuresWf)
    (fun t _ => structuresWf_clearInstance t) (fun _ ht => ht) hbody hs
  exact hu

/-! ### The code table of the active tree -/

/-- A new node leaves the active tree and its codes alone. -/
theorem codeTableCurrent_allocate {s : State} {n : Node} (hs : s.codeTableCurrent) (hn : n.fits s.node) :
    (s.allocate n).codeTableCurrent := by
  obtain ⟨hwf, hcodes⟩ := hs
  refine ⟨structuresWf_allocate hwf hn, fun h => ?_⟩
  obtain ⟨-, hnode, -, hroot⟩ := hwf
  obtain ⟨htree, hct⟩ := hcodes h
  exact ⟨htree, hct.trans (genCodes_append hnode [n] (hroot htree)).symm⟩

theorem Effect.keeps_codeTableCurrent {i : Instr} {s u : State} (h : Effect i s u) (hs : s.codeTableCurrent) :
    u.codeTableCurrent := by
  have hwf := h.keeps_structuresWf hs.1
  cases h with
  | ndLeaf hweight hfresh => exact codeTableCurrent_allocate hs (fits_leaf hweight hfresh)
  | ndJoin ha hb hne hpa hpb => exact codeTableCurrent_allocate hs (fits_joinNode ha hb hne hpa hpb)
  | cgGen htree => exact ⟨hwf, fun _ => ⟨htree, rfl⟩⟩
  | ftBuild | trSet | tbBuild | ccParse => exact State.codeTableCurrent_of_not_ctValid hwf rfl
  | _ => exact ⟨hwf, hs.2⟩

theorem codeTableCurrent_clearInstance (s : State) : s.clearInstance.codeTableCurrent :=
  State.codeTableCurrent_of_not_ctValid (structuresWf_clearInstance s) rfl

/-- Settles O59: a command that changes the active tree clears CT_VALID, and a node that is added is not part of that tree. -/
theorem stepKeepsCodeTableCurrent : Obligations.StepKeepsCodeTableCurrent := by
  intro s t
  refine step_keeps (fun _ _ _ _ hs => hs) (fun _ _ h hs => ⟨structuresWf_hostEffect h hs.1, by cases h <;> exact hs.2⟩)
    (fun _ _ => State.codeTableCurrent_of_not_ctValid (State.structuresWf_of_empty rfl rfl rfl rfl) rfl)
    (fun s w i u _ _ hbody hs => ?_) (fun s e _ => codeTableCurrent_clearInstance s)
  have hu : u.codeTableCurrent := commandBody_keeps (fun _ _ _ => Effect.keeps_codeTableCurrent)
    (fun t _ => codeTableCurrent_clearInstance t) (fun _ ht => ht) hbody hs
  exact hu

end Sys2Proof.Machine
end

section
/-! PROOFS. The buffers (R34, R35, R46, R48, R49, R72): every command keeps the lengths in range, and the memories in canonical
form, inside their sizes, and known where their bytes are valid. -/

namespace Sys2Proof.Machine

/-! ### Memories -/

/-- A memory that knows its first `n` bytes knows fewer. -/
theorem memoryWf_of_le {m : Memory} {size n k : Nat} (h : memoryWf m size n) (hk : k ≤ n) : memoryWf m size k := by
  obtain ⟨hwf, hmem, hread⟩ := h
  exact ⟨hwf, hmem, fun a ha => hread a (by omega)⟩

/-- The bytes of a string stored from offset 0 are known (R9). -/
theorem memoryWf_writeList {m : Memory} {size n : Nat} {bs : List Byte} (h : memoryWf m size n) (hbs : bs.length ≤ size) :
    memoryWf (Memory.writeList m 0 bs) size bs.length := by
  obtain ⟨hwf, hmem, -⟩ := h
  refine ⟨Memory.wf_writeList hwf 0 bs, fun c hc => ?_, fun a ha => ?_⟩
  · rcases Memory.mem_writeList hc with hc | ⟨-, hc⟩
    · exact hmem c hc
    · omega
  · rw [Memory.read_writeList, if_pos (by omega)]
    simp [ha]

/-- A byte written inside the memory keeps it well formed. -/
theorem memoryWf_write {m : Memory} {size i : Nat} {b : Byte} (h : memoryWf m size 0) (hi : i < size) :
    memoryWf (Memory.write m i b) size 0 := by
  obtain ⟨hwf, hmem, -⟩ := h
  refine ⟨Memory.wf_write hwf i b, fun c hc => ?_, fun a ha => absurd ha (Nat.not_lt_zero a)⟩
  rcases Memory.mem_write hc with rfl | hc
  · exact hi
  · exact hmem c hc

/-! ### Lengths of what the commands make -/

/-- BS_ASM appends a code only if it fits (R181). -/
theorem length_assembleBits {ct : CodeTable} {cap : Nat} {xs : List Byte} {bits out : Bits} (hbits : bits.length ≤ cap)
    (h : assembleBits ct cap xs bits = .ok out) : out.length ≤ cap := by
  fun_induction assembleBits ct cap xs bits with
  | case1 => exact Except.ok.inj h ▸ hbits
  | case2 => contradiction
  | case3 => contradiction
  | case4 x xs bits c hc hfit ih => exact ih (by rw [List.length_append]; omega) h

/-- BD_DECODE appends a symbol only if it fits (R222). -/
theorem length_decodeBits {ct : CodeTable} {cap : Nat} {bits : Bits} {i : Nat} {acc : Bits} {sofar out : List Byte}
    (hsofar : sofar.length ≤ cap) (h : decodeBits ct cap bits i acc sofar = .ok out) : out.length ≤ cap := by
  fun_induction decodeBits ct cap bits i acc sofar with
  | case1 => exact Except.ok.inj h ▸ hsofar
  | case2 => contradiction
  | case3 => contradiction
  | case4 i acc sofar b bits x hx hfull ih => exact ih (by rw [List.length_append, List.length_singleton]; omega) h
  | case5 i acc sofar b bits hnone hpre ih => exact ih hsofar h
  | case6 => contradiction

/-- BP_PACK pads to whole bytes (R183, R185). -/
theorem eight_mul_length_packBytes (bits : Bits) : 8 * (packBytes bits).length = bits.length + padCount bits.length := by
  simp only [packBytes, List.length_map, List.length_range, List.length_append, List.length_replicate, padCount]
  omega

theorem padCount_le (n : Nat) : padCount n ≤ 7 := by
  unfold padCount
  omega

theorem length_unpackBytes (bytes : List Byte) : (unpackBytes bytes).length = 8 * bytes.length := by
  simp [unpackBytes, List.length_flatMap, Nat.mul_comm]

theorem length_serTable (ft : FreqTable) : (serTable ft).length = 5 * ft.length := by
  simp [serTable, serRecord, List.length_flatMap, Nat.mul_comm]

@[simp] theorem length_payload (s : State) : s.payload.length = s.pkLen := by simp [State.payload]

/-! ### Every command and every step -/

theorem buffersWf_clearInstance {s : State} (hs : s.buffersWf) : s.clearInstance.buffersWf := by
  obtain ⟨-, -, -, -, -, -, hibuf, hobuf, hpbuf⟩ := hs
  exact ⟨tableWf_nil, Nat.zero_le _, Nat.zero_le _, Nat.zero_le _, Nat.zero_le _, Nat.two_pow_pos 32, hibuf,
    memoryWf_of_le hobuf (Nat.zero_le _), memoryWf_of_le hpbuf (Nat.zero_le _)⟩

theorem Effect.keeps_buffersWf {i : Instr} {s u : State} (h : Effect i s u) (hs : s.buffersWf) : u.buffersWf := by
  have hft := h.keeps_tableWf hs.1
  obtain ⟨-, hbits, hpk, hpad, hout, hhdr, hibuf, hobuf, hpbuf⟩ := hs
  cases h with
  | bsAsm _ _ hasm => exact ⟨hft, length_assembleBits (Nat.zero_le _) hasm, hpk, hpad, hout, hhdr, hibuf, hobuf, hpbuf⟩
  | bpPack =>
    have hfit : (packBytes s.bitbuf).length ≤ s.cfg.pbufSize := by
      have := eight_mul_length_packBytes s.bitbuf
      have := padCount_le s.bitbuf.length
      simp only [Config.bitCap] at hbits
      omega
    exact ⟨hft, hbits, hfit, padCount_le _, hout, hhdr, hibuf, hobuf, memoryWf_writeList hpbuf hfit⟩
  | bpUnpack =>
    have hfit : (unpackBytes s.payload).length ≤ s.cfg.bitCap := by
      simp only [length_unpackBytes, length_payload, Config.bitCap]
      omega
    exact ⟨hft, hfit, hpk, hpad, hout, hhdr, hibuf, hobuf, hpbuf⟩
  | ccEncode hfit =>
    have hlen : (serTable s.ft).length < 2 ^ 32 := by
      have htable := length_table_le (ft := s.ft) hft
      simp only [length_serTable, Config.alphabet] at htable ⊢
      omega
    exact ⟨hft, hbits, hpk, hpad, hfit, hlen, hibuf, memoryWf_writeList hobuf hfit, hpbuf⟩
  | ccParse hlen hparse =>
    obtain ⟨-, hhdr', hpad', hfit⟩ := parseContainer_ok hparse
    exact ⟨hft, hbits, hfit, hpad', hout, hhdr'.trans_lt (length_input_lt s), hibuf, hobuf, memoryWf_writeList hpbuf hfit⟩
  | bdDecode _ _ hdec =>
    have hfit := length_decodeBits (Nat.zero_le _) hdec
    exact ⟨hft, hbits, hpk, hpad, hfit, hhdr, hibuf, memoryWf_writeList hobuf hfit, hpbuf⟩
  | _ => exact ⟨hft, hbits, hpk, hpad, hout, hhdr, hibuf, hobuf, hpbuf⟩

theorem buffersWf_hostEffect {s u : State} (h : HostEffect s u) (hs : s.buffersWf) : u.buffersWf := by
  cases h with
  | ibuf i b _ hi =>
    obtain ⟨hft, hbits, hpk, hpad, hout, hhdr, hibuf, hobuf, hpbuf⟩ := hs
    exact ⟨hft, hbits, hpk, hpad, hout, hhdr, memoryWf_write hibuf hi, hobuf, hpbuf⟩
  | _ => exact hs

/-- After reset nothing is known of the memories and no length asks for a byte (R50). -/
theorem buffersWf_resetEvent (s : State) : s.resetEvent.buffersWf :=
  ⟨tableWf_nil, Nat.zero_le _, Nat.zero_le _, Nat.zero_le _, Nat.zero_le _, Nat.two_pow_pos 32, memoryWf_nil _, memoryWf_nil _,
    memoryWf_nil _⟩

/-- Settles O57: what a command stores fits and is known below its new length, and the host writes inside IBUF only. -/
theorem stepKeepsBuffers : Obligations.StepKeepsBuffers := by
  intro s t
  refine step_keeps (fun _ _ _ _ hs => hs) (fun _ _ => buffersWf_hostEffect) (fun s _ => buffersWf_resetEvent s)
    (fun s w i u _ _ hbody hs => ?_) (fun s e hs => ?_)
  · have hu : u.buffersWf := commandBody_keeps (fun _ _ _ => Effect.keeps_buffersWf)
      (fun t ht => buffersWf_clearInstance ht) (fun _ ht => ht) hbody hs
    exact hu
  · have hclear := buffersWf_clearInstance hs
    exact hclear

end Sys2Proof.Machine
end

section
/-! PROOFS. The host port whatever the block does: accesses that are refused (R67 to R69), the frame of every read (R70), and
accesses while a command runs (R77, R287). -/

namespace Sys2Proof.Machine

/-! ### Where an address leads -/

/-- An address inside a window is the window's base and an offset. -/
theorem eq_ofNat_of_inside {base size : Nat} {addr : Word} (h : inside base size addr) :
    ∃ o < size, addr = BitVec.ofNat 32 (base + o) := by
  obtain ⟨hbase, hend⟩ := h
  refine ⟨addr.toNat - base, by omega, ?_⟩
  rw [Nat.add_sub_cancel' hbase, BitVec.ofNat_toNat, BitVec.setWidth_eq]

theorem addressTarget_of_inside_reg {c : Config} {addr : Word} (hc : c.ok) (h : inside c.regBase 0x1000 addr) :
    ∃ o, addressTarget c addr.toNat = .reg o :=
  have ⟨o, ho, haddr⟩ := eq_ofNat_of_inside h
  ⟨o, haddr ▸ (addressTarget_regAddr hc ho).1⟩

theorem addressTarget_of_inside_ibuf {c : Config} {addr : Word} (hc : c.ok) (h : inside c.ibufBase c.ibufSize addr) :
    ∃ i, addressTarget c addr.toNat = .ibuf i :=
  have ⟨i, hi, haddr⟩ := eq_ofNat_of_inside h
  ⟨i, haddr ▸ addressTarget_ibufAddr hc hi⟩

theorem addressTarget_of_inside_obuf {c : Config} {addr : Word} (hc : c.ok) (h : inside c.obufBase c.obufSize addr) :
    ∃ i, addressTarget c addr.toNat = .obuf i :=
  have ⟨i, hi, haddr⟩ := eq_ofNat_of_inside h
  ⟨i, haddr ▸ addressTarget_obufAddr hc hi⟩

theorem addressTarget_of_outsideAll {c : Config} {addr : Word} (h : outsideAll c addr) :
    addressTarget c addr.toNat = .outside := by
  obtain ⟨hreg, hibuf, hobuf⟩ := h
  have hwindow {base size : Nat} (h : ¬ inside base size addr) : ¬ inWindow base size addr.toNat = true := by
    simpa [inWindow] using h
  rw [addressTarget, if_neg (hwindow hreg), if_neg (hwindow hibuf), if_neg (hwindow hobuf)]

/-! ### Refused accesses -/

theorem regAccessOk_eq_false {addr bytes : Nat} (h : bytes ≠ 4 ∨ addr % 4 ≠ 0) : regAccessOk addr bytes = false := by
  rcases h with h | h <;> simp [regAccessOk, h]

/-- A refused read is answered as one, whether a command runs or not (R69). -/
theorem hostRead_of_refused {s : State} {addr : Word} {bytes : Nat} (hc : s.cfg.ok)
    (h : accessRefused s.cfg (.read addr bytes)) : s.hostRead addr bytes = s.refuseRead := by
  rcases h with ⟨hin, hform⟩ | ⟨hin, hwide⟩ | ⟨hin, hwide⟩ | hout
  · obtain ⟨o, htarget⟩ := addressTarget_of_inside_reg hc hin
    simp [State.hostRead, htarget, regAccessOk_eq_false hform]
  · obtain ⟨i, htarget⟩ := addressTarget_of_inside_ibuf hc hin
    simp [State.hostRead, htarget, hwide]
  · obtain ⟨i, htarget⟩ := addressTarget_of_inside_obuf hc hin
    simp [State.hostRead, htarget, hwide]
  · simp [State.hostRead, addressTarget_of_outsideAll hout]

/-- A refused write is answered as one, whether a command runs or not (R69). -/
theorem hostWrite_of_refused {s : State} {addr v : Word} {bytes : Nat} (hc : s.cfg.ok)
    (h : accessRefused s.cfg (.write addr bytes v)) : s.hostWrite addr bytes v = .next s.refuseWrite := by
  rcases h with ⟨hin, hform⟩ | ⟨hin, hwide⟩ | hin | hout
  · obtain ⟨o, htarget⟩ := addressTarget_of_inside_reg hc hin
    simp [State.hostWrite, htarget, regAccessOk_eq_false hform]
  · obtain ⟨i, htarget⟩ := addressTarget_of_inside_ibuf hc hin
    simp [State.hostWrite, htarget, hwide]
  · obtain ⟨i, htarget⟩ := addressTarget_of_inside_obuf hc hin
    simp [State.hostWrite, htarget]
  · simp [State.hostWrite, addressTarget_of_outsideAll hout]

/-- Settles O12: the address map leads each refused access to the port's refusal, which is the bus error alone. -/
theorem refusedAccessChangesNothing : Obligations.RefusedAccessChangesNothing := by
  intro s a rest hc hrefused h
  rw [step_of_access h]
  cases a with
  | read addr bytes => exact ⟨_, _, congrArg Host.Outcome.next (hostRead_of_refused hc hrefused)⟩
  | write addr bytes v => exact ⟨none, s.draws, hostWrite_of_refused hc hrefused⟩

/-! ### Every read -/

theorem readOffset_answers (s : State) (o : Nat) : (s.readOffset o).resp.isSome = true := by
  unfold State.readOffset
  split <;> split <;> rfl

theorem hostRead_answers (s : State) (addr : Word) (bytes : Nat) : (s.hostRead addr bytes).resp.isSome = true := by
  unfold State.hostRead
  split
  · split
    · exact readOffset_answers s _
    · rfl
  · split
    · rfl
    · split <;> rfl
  · split
    · rfl
    · split <;> rfl
  · rfl

/-- Settles O13: a read leaves all but the answer and the count of free values, and it is answered. -/
theorem hostReadHasNoSideEffect : Obligations.HostReadHasNoSideEffect := by
  intro s addr bytes rest h
  obtain ⟨r, n, hread⟩ := hostRead_eq_answered { s with port := rest } addr bytes
  have hresp := hostRead_answers { s with port := rest } addr bytes
  rw [hread] at hresp
  obtain ⟨r, rfl⟩ := Option.isSome_iff_exists.1 hresp
  exact ⟨r, n, (step_of_access h).trans (congrArg Host.Outcome.next hread)⟩

/-! ### Accesses while a command runs -/

theorem offset_of_regAt {o : Nat} {r : Reg} (h : regAt o = some r) : r.offset = o := by
  simpa using List.find?_some h

/-- Only STATUS and CTRL are read as specified while a command runs (R77, R287). -/
theorem readOffset_of_busy {s : State} {o : Nat} (hbusy : s.busy = true) (hstatus : o ≠ Reg.status.offset)
    (hctrl : o ≠ Reg.ctrl.offset) : s.readOffset o = s.answerFreeWord := by
  unfold State.readOffset
  split
  · next r hr =>
    obtain rfl := offset_of_regAt hr
    have hclosed : r.accessibleWhileBusy = false := by
      cases r with
      | status => exact absurd rfl hstatus
      | ctrl => exact absurd rfl hctrl
      | _ => rfl
    exact if_pos (by rw [hbusy, hclosed]; rfl)
  · exact if_pos hbusy

/-- A write of a register that the running command may use is refused (R287). -/
theorem step_of_racingRegWrite {s : State} {rest : List PortEvent} {v : Word} (r : Reg) (hc : s.cfg.ok) (hbusy : s.busy = true)
    (hrace : r.racesWhileBusy = true) (h : s.port = .access (.write (regAddr s.cfg r.offset) 4 v) :: rest) :
    step s = .refused .hostWriteWhileBusy := by
  have hlt := offset_lt r
  rw [step_of_regWrite hc (by omega) (offset_mod_four r) h, State.writeOffset, regAt_offset]
  have hrefuse : (s.busy && r.racesWhileBusy) = true := by rw [hbusy, hrace]; rfl
  exact if_pos hrefuse

/-- A byte written to the IBUF window while a command runs is refused (R287). -/
theorem step_of_ibufWrite_busy {s : State} {rest : List PortEvent} {i : Nat} {v : Word} (hc : s.cfg.ok) (hbusy : s.busy = true)
    (hi : i < s.cfg.ibufSize) (h : s.port = .access (.write (ibufAddr s.cfg i) 1 v) :: rest) :
    step s = .refused .hostWriteWhileBusy := by
  have hgo : ({ s with port := rest } : State).busy = true := hbusy
  rw [step_of_access h]
  simp [hostAccess, State.hostWrite, addressTarget_ibufAddr hc hi, hgo]

/-- Settles O15: STATUS and CTRL are the registers open while a command runs, and ARG0, IN_LEN and IBUF those whose write races. -/
theorem accessesWhileBusy : Obligations.AccessesWhileBusy := by
  refine fun s rest v hc hbusy => ⟨fun h => ?_, fun h => ?_, fun h => ?_, fun o ho halign hstatus hctrl h => ?_, fun h => ?_⟩
  · exact step_of_regRead_offset .status hc (.inr rfl) h
  · rw [← ctrlWord_eq]
    exact step_of_regRead_offset .ctrl hc (.inr rfl) h
  · exact step_of_regWrite_offset .ctrl hc (.inr rfl) h
  · have hbusy' : ({ s with port := rest } : State).busy = true := hbusy
    rw [step_of_regRead hc ho halign h, readOffset_of_busy hbusy' hstatus hctrl]
    exact ⟨_, rfl⟩
  · rcases h with h | h | ⟨i, hi, h⟩
    · exact step_of_racingRegWrite .arg0 hc hbusy rfl h
    · exact step_of_racingRegWrite .inLen hc hbusy rfl h
    · exact step_of_ibufWrite_busy hc hbusy hi h

end Sys2Proof.Machine
end

section
/-! PROOFS. Command words (R91 to R97): a word is legal for a row exactly when it holds the row's opcode and every bit at and above
the operands of the row's format is 0; such a word is the word of the instruction read from its fields, and the other way round. -/

namespace Sys2Proof

/-! ### The bits a format uses -/

/-- The number of low bits that the opcode and the operands of a format take up; every bit above them is unused (R92). -/
def Format.width : Format → Nat
  | .z => 8
  | .s => 16
  | .n => 17
  | .nn => 26

/-- A word is its opcode byte, its operand bits up to `k`, and its bits from `k` up. -/
theorem word_eq_iff {k : Nat} (hk : 8 ≤ k) (v w : Word) :
    v = w ↔ v.extractLsb' 0 8 = w.extractLsb' 0 8 ∧ v.extractLsb' 8 (k - 8) = w.extractLsb' 8 (k - 8) ∧
      v.extractLsb' k (32 - k) = w.extractLsb' k (32 - k) := by
  refine ⟨by rintro rfl; exact ⟨rfl, rfl, rfl⟩, fun ⟨hop, hoperands, hunused⟩ => BitVec.eq_of_getLsbD_eq fun j hj => ?_⟩
  have hbit {a n : Nat} (h : v.extractLsb' a n = w.extractLsb' a n) (ha : a ≤ j) (hn : j < a + n) :
      v.getLsbD j = w.getLsbD j := by
    have := congrArg (fun x => x.getLsbD (j - a)) h
    simpa [BitVec.getLsbD_extractLsb', show j - a < n by omega, show a + (j - a) = j by omega] using this
  rcases Nat.lt_or_ge j 8 with h | h
  · exact hbit hop (Nat.zero_le j) (by omega)
  · rcases Nat.lt_or_ge j k with h' | h'
    · exact hbit hoperands h (by omega)
    · exact hbit hunused h' (by omega)

/-- Bits of a 32-bit word from `k` up are all 0 when the number is below `2^k`. -/
theorem extractLsb'_eq_zero_iff {k : Nat} (hk : k ≤ 32) (w : Word) : w.extractLsb' k (32 - k) = 0 ↔ w.toNat < 2 ^ k := by
  have hlt : w.toNat / 2 ^ k < 2 ^ (32 - k) := by
    rw [Nat.div_lt_iff_lt_mul (by positivity), ← Nat.pow_add, Nat.sub_add_cancel hk]
    exact w.isLt
  rw [← BitVec.toNat_inj, BitVec.extractLsb'_toNat, Nat.shiftRight_eq_div_pow, Nat.mod_eq_of_lt hlt]
  exact Nat.div_eq_zero_iff_lt (by positivity)

theorem Format.width_range (f : Format) : 8 ≤ f.width ∧ f.width ≤ 26 := by cases f <;> decide

/-- A mask of R92 lets through the opcode and the unused bits, and nothing of the operands. -/
theorem Format.mask_fields (f : Format) :
    f.mask.extractLsb' 0 8 = BitVec.allOnes 8 ∧ f.mask.extractLsb' 8 (f.width - 8) = 0 ∧
      f.mask.extractLsb' f.width (32 - f.width) = BitVec.allOnes (32 - f.width) := by
  cases f <;> decide

/-- A match value of R93 has the opcode and nothing above it. -/
theorem Opcode.matchWord_fields (op : Opcode) :
    op.matchWord.extractLsb' 0 8 = op.code ∧ op.matchWord.extractLsb' 8 (op.format.width - 8) = 0 ∧
      op.matchWord.extractLsb' op.format.width (32 - op.format.width) = 0 := by
  cases op <;> decide

/-- Legality for a row (R94): the row's opcode, and no bit set above the operands. -/
theorem legalFor_iff (op : Opcode) (w : Word) :
    legalFor op w = true ↔ fieldOp w = op.code ∧ w.toNat < 2 ^ op.format.width := by
  obtain ⟨hlow, hhigh⟩ := op.format.width_range
  obtain ⟨hmop, hmoperands, hmunused⟩ := op.format.mask_fields
  obtain ⟨hop, hoperands, hunused⟩ := op.matchWord_fields
  rw [legalFor, decide_eq_true_iff, word_eq_iff hlow, ← extractLsb'_eq_zero_iff (by omega)]
  simp only [BitVec.extractLsb'_and, hmop, hmoperands, hmunused, hop, hoperands, hunused, BitVec.and_allOnes]
  simp [fieldOp]

/-! ### The rows of R93 -/

theorem Opcode.mem_all (op : Opcode) : op ∈ Opcode.all := by cases op <;> decide

theorem Opcode.code_injective : Function.Injective Opcode.code :=
  fun a b h => List.inj_on_of_nodup_map (f := Opcode.code) (l := Opcode.all) (by decide) a.mem_all b.mem_all h

/-- The row of a word is the one with the word's opcode. -/
theorem opcodeOf_eq_some_iff {w : Word} {op : Opcode} : opcodeOf w = some op ↔ fieldOp w = op.code := by
  constructor
  · intro h
    exact (beq_iff_eq.1 (List.find?_some h :)).symm
  · intro h
    have hfound : (opcodeOf w).isSome = true :=
      List.find?_isSome.2 ⟨op, op.mem_all, beq_iff_eq.2 h.symm⟩
    obtain ⟨op', hop'⟩ := Option.isSome_iff_exists.1 hfound
    have hcode : op'.code = fieldOp w := beq_iff_eq.1 (List.find?_some hop' :)
    rw [hop', Opcode.code_injective (hcode.trans h)]

/-- A word decodes exactly when it is legal for a row, to that row's instruction with the operands of the word (R94, R96). -/
theorem decode_eq_ok_iff {w : Word} {i : Instr} :
    decode w = .ok i ↔ ∃ op, legalFor op w = true ∧ assembleOperands op w = i := by
  constructor
  · intro h
    unfold decode at h
    split at h
    · contradiction
    · next op _ =>
      split at h
      · next hlegal => exact ⟨op, hlegal, Except.ok.inj h⟩
      · contradiction
  · rintro ⟨op, hlegal, rfl⟩
    have hrow : opcodeOf w = some op := opcodeOf_eq_some_iff.2 ((legalFor_iff op w).1 hlegal).1
    simp [decode, hrow, hlegal]

/-! ### From an instruction to its word and back -/

theorem fieldA_lt (w : Word) : fieldA w < 512 := BitVec.isLt _

theorem fieldB_lt (w : Word) : fieldB w < 512 := BitVec.isLt _

theorem fieldA_eq (w : Word) : fieldA w = w.toNat / 2 ^ 8 % 2 ^ 9 := by
  rw [fieldA, BitVec.extractLsb'_toNat, Nat.shiftRight_eq_div_pow]

theorem fieldB_eq (w : Word) : fieldB w = w.toNat / 2 ^ 17 % 2 ^ 9 := by
  rw [fieldB, BitVec.extractLsb'_toNat, Nat.shiftRight_eq_div_pow]

theorem toNat_fieldSym (w : Word) : (fieldSym w).toNat = w.toNat / 2 ^ 8 % 2 ^ 8 := by
  rw [fieldSym, BitVec.extractLsb'_toNat, Nat.shiftRight_eq_div_pow]

theorem toNat_fieldOp (w : Word) : (fieldOp w).toNat = w.toNat % 2 ^ 8 := by
  rw [fieldOp, BitVec.extractLsb'_toNat, Nat.shiftRight_zero]

/-- The operands of a well-formed instruction lie in the bits its format uses (R91, R92). -/
theorem operands_lt {i : Instr} (hwf : i.wf = true) :
    2 ^ 8 + i.operandA * 2 ^ 8 + i.operandB * 2 ^ 17 ≤ 2 ^ i.opcode.format.width ∧ i.operandA < 512 ∧ i.operandB < 512 := by
  cases i with
  | ndLeaf sym =>
    have := sym.isLt
    simp only [Instr.operandA, Instr.operandB, Instr.opcode, Opcode.format, Format.width]
    omega
  | ndJoin a b =>
    simp only [Instr.wf, nodeOperandFits, Bool.and_eq_true, decide_eq_true_eq] at hwf
    simp only [Instr.operandA, Instr.operandB, Instr.opcode, Opcode.format, Format.width]
    omega
  | trSet a | pqEnq a =>
    simp only [Instr.wf, nodeOperandFits, decide_eq_true_eq] at hwf
    simp only [Instr.operandA, Instr.operandB, Instr.opcode, Opcode.format, Format.width]
    omega
  | _ => exact ⟨le_rfl, by decide, by decide⟩

/-- The number that the word of a well-formed instruction is (R91). -/
theorem toNat_encode {i : Instr} (hwf : i.wf = true) :
    (encode i).toNat = i.opcode.code.toNat + i.operandA * 2 ^ 8 + i.operandB * 2 ^ 17 := by
  obtain ⟨-, ha, hb⟩ := operands_lt hwf
  have := i.opcode.code.isLt
  rw [encode, BitVec.toNat_ofNat]
  omega

/-- The word of a well-formed instruction is legal for its row (R92, R94). -/
theorem legalFor_encode {i : Instr} (hwf : i.wf = true) : legalFor i.opcode (encode i) = true := by
  refine (legalFor_iff _ _).2 ⟨Laws.OpcodeField.fieldOp_ofNat _ _ _, ?_⟩
  have hcode := i.opcode.code.isLt
  have hlt := (operands_lt hwf).1
  rw [toNat_encode hwf]
  omega

/-- The operands are read back from the word of a well-formed instruction (R96). -/
theorem assembleOperands_encode {i : Instr} (hwf : i.wf = true) : assembleOperands i.opcode (encode i) = i := by
  obtain ⟨-, ha, hb⟩ := operands_lt hwf
  have hcode := i.opcode.code.isLt
  have hword := toNat_encode hwf
  have hA : fieldA (encode i) = i.operandA := by rw [fieldA_eq]; omega
  have hB : fieldB (encode i) = i.operandB := by rw [fieldB_eq]; omega
  have hsym : (fieldSym (encode i)).toNat = i.operandA % 2 ^ 8 := by rw [toNat_fieldSym]; omega
  cases i with
  | ndLeaf sym => exact congrArg Instr.ndLeaf (BitVec.eq_of_toNat_eq (hsym.trans (Nat.mod_eq_of_lt sym.isLt)))
  | ndJoin a b => exact congrArg₂ Instr.ndJoin hA hB
  | trSet a => exact congrArg Instr.trSet hA
  | pqEnq a => exact congrArg Instr.pqEnq hA
  | _ => rfl

/-- Settles O2: the word of a well-formed instruction is legal for its row, and its fields hold the operands. -/
theorem decodeOfEncode : Obligations.DecodeOfEncode :=
  fun i hwf => decode_eq_ok_iff.2 ⟨i.opcode, legalFor_encode hwf, assembleOperands_encode hwf⟩

@[simp] theorem opcode_assembleOperands (op : Opcode) (w : Word) : (assembleOperands op w).opcode = op := by cases op <;> rfl

/-- The operands read from a word fit their fields (R96). -/
theorem wf_assembleOperands (op : Opcode) (w : Word) : (assembleOperands op w).wf = true := by
  have ha : nodeOperandFits (fieldA w) = true := decide_eq_true (fieldA_lt w)
  have hb : nodeOperandFits (fieldB w) = true := decide_eq_true (fieldB_lt w)
  cases op with
  | ndJoin => exact Bool.and_eq_true_iff.2 ⟨ha, hb⟩
  | trSet | pqEnq => exact ha
  | _ => rfl

/-- In a word with no bit set above the operands of a format, a field the format does not use is 0. -/
theorem operands_assembleOperands {op : Opcode} {w : Word} (hw : w.toNat < 2 ^ op.format.width) :
    (assembleOperands op w).operandA = w.toNat / 2 ^ 8 % 2 ^ 9 ∧ (assembleOperands op w).operandB = w.toNat / 2 ^ 17 := by
  cases op with
  | ndLeaf =>
    simp only [assembleOperands, Instr.operandA, Instr.operandB, toNat_fieldSym, Opcode.format, Format.width] at *
    omega
  | ndJoin => exact ⟨fieldA_eq w, (fieldB_eq w).trans (Nat.mod_eq_of_lt (Nat.div_lt_of_lt_mul hw))⟩
  | trSet | pqEnq => exact ⟨fieldA_eq w, (Nat.div_eq_of_lt hw).symm⟩
  | _ =>
    simp only [assembleOperands, Instr.operandA, Instr.operandB, Opcode.format, Format.width] at *
    omega

/-- A legal word is the word of the instruction read from it (R91, R94). -/
theorem encode_assembleOperands {op : Opcode} {w : Word} (h : legalFor op w = true) : encode (assembleOperands op w) = w := by
  obtain ⟨hop, hw⟩ := (legalFor_iff op w).1 h
  obtain ⟨ha, hb⟩ := operands_assembleOperands hw
  apply BitVec.eq_of_toNat_eq
  rw [toNat_encode (wf_assembleOperands op w), opcode_assembleOperands, ha, hb, ← hop, toNat_fieldOp]
  omega

/-- Settles O3: a legal word is the word of the instruction that its row and its fields give. -/
theorem encodeOfDecode : Obligations.EncodeOfDecode := by
  intro w i h
  obtain ⟨op, hlegal, rfl⟩ := decode_eq_ok_iff.1 h
  exact ⟨wf_assembleOperands op w, encode_assembleOperands hlegal⟩

/-! ### The table of legal words -/

/-- A word decodes exactly when it has the match value of a row under the mask of its format (R94). -/
theorem exists_decode_iff {w : Word} : (∃ i, decode w = .ok i) ↔ ∃ op : Opcode, w &&& op.format.mask = op.matchWord := by
  simp only [decode_eq_ok_iff, legalFor, decide_eq_true_iff]
  exact ⟨fun ⟨_, op, h, _⟩ => ⟨op, h⟩, fun ⟨op, h⟩ => ⟨_, op, h, rfl⟩⟩

/-- The rows of R93 whose commands have no operand (R92 format Z). -/
def formatZRows : List Opcode := Opcode.all.filter (fun op => op.format == .z)

theorem format_of_mem_formatZRows {op : Opcode} (h : op ∈ formatZRows) : op.format = .z :=
  beq_iff_eq.1 (List.mem_filter.1 h).2

/-- Settles O4: each row of R93 has its place in the list, those of format Z by their match values. -/
theorem legalWordsAreTheTable : Obligations.LegalWordsAreTheTable := by
  intro w
  rw [exists_decode_iff]
  constructor
  · rintro ⟨op, h⟩
    cases op with
    | ndLeaf => exact .inr (.inl h)
    | trSet => exact .inr (.inr (.inl h))
    | pqEnq => exact .inr (.inr (.inr (.inl h)))
    | ndJoin => exact .inr (.inr (.inr (.inr h)))
    | _ => exact .inl ⟨_, by decide, h⟩
  · rintro (⟨m, hm, h⟩ | h | h | h | h)
    · have hrow : m ∈ formatZRows.map Opcode.matchWord := hm
      obtain ⟨op, hop, rfl⟩ := List.mem_map.1 hrow
      exact ⟨op, by rw [format_of_mem_formatZRows hop]; exact h⟩
    · exact ⟨.ndLeaf, h⟩
    · exact ⟨.trSet, h⟩
    · exact ⟨.pqEnq, h⟩
    · exact ⟨.ndJoin, h⟩

/-- Settles O1: the listed words evaluated. -/
theorem listedWordsDecode : Obligations.ListedWordsDecode := by
  refine ⟨⟨rfl, rfl, rfl, rfl, rfl, rfl, rfl, rfl, rfl, rfl⟩, ⟨rfl, rfl, rfl, rfl, rfl, rfl, rfl, rfl, rfl, rfl, rfl⟩, ?_⟩
  exact List.forall_iff_forall_mem.1 ⟨rfl, rfl, rfl, rfl, rfl, rfl, rfl, rfl⟩

end Sys2Proof
end

section
/-! PROOFS. An accepted word (R22, R28, R90): when a CMD write is accepted, and what the step that runs the accepted word does. -/

namespace Sys2Proof.Machine

/-! ### The write of CMD -/

/-- A write of CMD while a command runs is dropped with OVR (R286). -/
theorem writeCmd_of_busy {s : State} (w : Word) (hbusy : s.busy = true) : s.writeCmd w = { s with ovr := true } := if_pos hbusy

/-- In the error state a write of CMD is dropped, unless its opcode is CLR's (R28). -/
theorem writeCmd_of_err {s : State} {w : Word} (hbusy : s.busy = false) (herr : s.err = true) (hop : fieldOp w ≠ Opcode.clr.code) :
    s.writeCmd w = s := by
  simp [State.writeCmd, hbusy, herr, hop]

/-- A write of CMD is accepted outside the error state, and CLR's opcode always (R28, R90 step 3). -/
theorem writeCmd_eq_accept {s : State} {w : Word} (hbusy : s.busy = false) (h : s.err = false ∨ fieldOp w = Opcode.clr.code) :
    s.writeCmd w = s.accept w := by
  rcases h with h | h <;> simp [State.writeCmd, hbusy, h]

/-- Settles O7: the three cases of a CMD write, each acknowledged. -/
theorem commandWriteIssuesOrDrops : Obligations.CommandWriteIssuesOrDrops := by
  intro s w rest hc hport
  have hstep {u : State} (h : ({ s with port := rest } : State).writeCmd w = u) : step s = .next (u.answer .ack) :=
    h ▸ step_of_regWrite_offset .cmd hc (.inr rfl) hport
  exact ⟨fun hbusy => hstep (writeCmd_of_busy w hbusy), fun hbusy herr hop => hstep (writeCmd_of_err hbusy herr hop),
    fun hbusy hgo => hstep (writeCmd_eq_accept hbusy hgo)⟩

/-- The number of a word is that word's number again in ERR_INFO and in CMD. -/
theorem ofNat_toNat_word (w : Word) : BitVec.ofNat 32 w.toNat = w := BitVec.eq_of_toNat_eq (toNat_ofNat_of_lt w.isLt)

/-! ### The step that runs an accepted word -/

/-- With nothing left at the port the accepted word runs (R90). -/
theorem step_of_port_nil {s : State} {w : Word} (hrun : s.running = some w) (hport : s.port = []) : step s = runWord w s := by
  simp [step, hport, sequencerStep, hrun]

/-- While the host waits the accepted word runs (R90, R99). -/
theorem step_of_wait {s : State} {w : Word} {rest : List PortEvent} (hrun : s.running = some w) (hport : s.port = .wait :: rest) :
    step s = runWord w { s with port := rest } := by
  simp [step, hport, sequencerStep, hrun]

/-- A legal word runs as its instruction (R90 step 5). -/
theorem runWord_of_decode {w : Word} {i : Instr} (h : decode w = .ok i) (s : State) : runWord w s = exec i s := by
  simp [runWord, h]

/-- An illegal word takes the error entry of R256 with the word as ERR_INFO (R95). -/
theorem runWord_of_illegal {w : Word} (h : ∀ i, decode w ≠ .ok i) (s : State) : runWord w s = .next (afterError s 5 w) := by
  unfold runWord
  split
  · rw [finish_error, State.errorEntry, illegalCommandError, ofNat_toNat_word]
    rfl
  · next i hi => exact absurd hi (h i)

/-- Settles O5: the running word is illegal, whether or not the host waits. -/
theorem illegalWordRaisesError : Obligations.IllegalWordRaisesError := by
  intro s w rest hrun hillegal
  refine ⟨fun hport => ?_, fun hport => ?_⟩
  · rw [step_of_port_nil hrun hport, runWord_of_illegal hillegal]
  · rw [step_of_wait hrun hport, runWord_of_illegal hillegal]

/-- The 32-bit word of a number is that number's word (R91). -/
theorem tableWord_toNat (w : Word) : tableWord 32 w.toNat = w := by
  rw [tableWord, Nat.mod_eq_of_lt w.isLt, ofNat_toNat_word]

/-- Settles O6: the running word is legal, and `withFetchWord` leaves it running with the host waiting. -/
theorem stepRunsDecodedInstruction : Obligations.StepRunsDecodedInstruction := by
  refine ⟨fun s w i rest hrun hdec => ⟨fun hport => ?_, fun hport => ?_⟩, fun s w i hdec => ?_⟩
  · rw [step_of_port_nil hrun hport, runWord_of_decode hdec]
  · rw [step_of_wait hrun hport, runWord_of_decode hdec]
  · rw [State.withFetchWord, tableWord_toNat, step_of_wait (w := w) (rest := s.port) rfl rfl, runWord_of_decode hdec]
    rfl

end Sys2Proof.Machine
end

section
/-! PROOFS. Decimal text (R105): the value of a digit text as the sum of its digits' weights and as the digits of its number, and the
text of a number read back. -/

namespace Sys2Proof.Machine

/-! ### The value of a digit text -/

/-- The digits of a text as numbers, the least significant first. -/
def digitsOf (bs : List Byte) : List Nat := bs.reverse.map (fun b => b.toNat - 0x30)

/-- The digits read one after the other are those of the number (R105). -/
theorem digitsValue_eq_ofDigits (bs : List Byte) : digitsValue bs = Nat.ofDigits 10 (digitsOf bs) := by
  rw [digitsOf, Nat.ofDigits_eq_foldr, List.foldr_map, List.foldr_reverse, digitsValue]
  congr
  funext acc b
  rw [Nat.cast_id, Nat.mul_comm, Nat.add_comm]

theorem digitsOf_cons (b : Byte) (bs : List Byte) : digitsOf (b :: bs) = digitsOf bs ++ [b.toNat - 0x30] := by
  simp [digitsOf]

theorem length_digitsOf (bs : List Byte) : (digitsOf bs).length = bs.length := by simp [digitsOf]

/-- The first digit of a text weighs as much as its place (R105). -/
theorem textValue_cons (b : Byte) (bs : List Byte) : textValue (b :: bs) = (b.toNat - 0x30) * 10 ^ bs.length + textValue bs := by
  have hplace (i : Nat) : bs.length - 1 - i = bs.length - (i + 1) := by omega
  simp [textValue, List.range_succ_eq_map, Function.comp_def, hplace]

/-- The sum of R105 is the number with the digits of the text. -/
theorem textValue_eq_ofDigits (bs : List Byte) : textValue bs = Nat.ofDigits 10 (digitsOf bs) := by
  induction bs with
  | nil => rfl
  | cons b bs ih =>
    rw [textValue_cons, ih, digitsOf_cons, Nat.ofDigits_append, Nat.ofDigits_singleton, length_digitsOf, Nat.mul_comm,
      Nat.add_comm]

theorem isAsciiDigit_eq_true_iff {b : Byte} : isAsciiDigit b = true ↔ isDigit b := by
  simp [isAsciiDigit]

/-- `undec` is defined exactly on non-empty digit texts, and gives their value (R105). -/
theorem undecText_eq_some_iff {bs : List Byte} {n : Nat} :
    undecText bs = some n ↔ (bs ≠ [] ∧ ∀ b ∈ bs, isDigit b) ∧ textValue bs = n := by
  have hguard : (!bs.isEmpty && bs.all isAsciiDigit) = true ↔ bs ≠ [] ∧ ∀ b ∈ bs, isDigit b := by
    simp [isAsciiDigit_eq_true_iff]
  rw [undecText, textValue_eq_ofDigits, ← digitsValue_eq_ofDigits]
  by_cases hbs : bs ≠ [] ∧ ∀ b ∈ bs, isDigit b
  · rw [if_pos (hguard.2 hbs), and_iff_right hbs, Option.some.injEq]
  · rw [if_neg (hguard.not.2 hbs)]
    exact iff_of_false nofun fun h => hbs h.1

/-! ### The text of a number -/

/-- The digit of a number below 10 and back (R104). -/
theorem toNat_asciiDigit {k : Nat} (hk : k < 10) : (asciiDigit k).toNat = 0x30 + k := by
  rw [asciiDigit, BitVec.toNat_ofNat, Nat.mod_eq_of_lt (by omega)]

theorem isDigit_asciiDigit {k : Nat} (hk : k < 10) : isDigit (asciiDigit k) := by
  rw [isDigit, toNat_asciiDigit hk]
  omega

theorem decText_of_pos {n : Nat} (hn : 0 < n) : decText n = (Nat.digits 10 n).reverse.map asciiDigit := if_neg hn.ne'

/-- The text of a number is a non-empty digit text (R105). -/
theorem decText_digits (n : Nat) : decText n ≠ [] ∧ ∀ b ∈ decText n, isDigit b := by
  rcases Nat.eq_zero_or_pos n with rfl | hn
  · decide
  · rw [decText_of_pos hn]
    refine ⟨by simpa [Nat.digits_eq_nil_iff_eq_zero] using hn.ne', fun b hb => ?_⟩
    obtain ⟨k, hk, rfl⟩ := List.mem_map.1 hb
    exact isDigit_asciiDigit (Nat.digits_lt_base (by decide) (List.mem_reverse.1 hk))

/-- The text of a number writes that number (R105). -/
theorem textValue_decText (n : Nat) : textValue (decText n) = n := by
  rcases Nat.eq_zero_or_pos n with rfl | hn
  · rfl
  · have hdigits : digitsOf (decText n) = Nat.digits 10 n := by
      rw [decText_of_pos hn, digitsOf, ← List.map_reverse, List.reverse_reverse, List.map_map]
      refine (List.map_congr_left fun k hk => ?_).trans (List.map_id _)
      rw [Function.comp_apply, toNat_asciiDigit (Nat.digits_lt_base (by decide) hk), Nat.add_sub_cancel_left, id]
    rw [textValue_eq_ofDigits, hdigits, Nat.ofDigits_digits]

/-- The text of a positive number has no leading zero (R105). -/
theorem head_decText {n : Nat} (hn : 0 < n) : (decText n).head? ≠ some 0x30#8 := by
  have hne : Nat.digits 10 n ≠ [] := Nat.digits_ne_nil_iff_ne_zero.2 hn.ne'
  have hlast : (Nat.digits 10 n).getLast hne < 10 := Nat.digits_lt_base (by decide) (List.getLast_mem hne)
  rw [decText_of_pos hn, List.head?_map, List.head?_reverse, List.getLast?_eq_some_getLast hne, Option.map_some, ne_eq,
    Option.some.injEq, ← BitVec.toNat_inj, toNat_asciiDigit hlast]
  have hnonzero := Nat.getLast_digit_ne_zero 10 hn.ne'
  simpa using hnonzero

/-- Settles O36: `undec` gives the value of each non-empty digit text, and the text of a number is one with that value. -/
theorem decimalTextRoundTrip : Obligations.DecimalTextRoundTrip := by
  refine ⟨fun n => undecText_eq_some_iff.2 ⟨decText_digits n, textValue_decText n⟩, rfl, fun n => head_decText,
    fun bs hbs => undecText_eq_some_iff.2 ⟨hbs, rfl⟩, fun bs hbs => ?_⟩
  exact Option.eq_none_iff_forall_ne_some.2 fun n hn => hbs (undecText_eq_some_iff.1 hn).1

end Sys2Proof.Machine
end

section
/-! PROOFS. CC_PARSE (R100 to R109, R206): each part of the parser succeeds exactly on the bytes of that part of a container, so
that `parseContainer` takes exactly the containers whose payload fits. -/

namespace Sys2Proof.Machine

/-! ### Records and tables -/

/-- The count of a record is written most significant byte first (R108). -/
theorem toNat_recordCount (b1 b2 b3 b4 : Byte) :
    (recordCount b1 b2 b3 b4).toNat = b1.toNat * 2 ^ 24 + b2.toNat * 2 ^ 16 + b3.toNat * 2 ^ 8 + b4.toNat :=
  toNat_ofNat_of_lt (by omega)

/-- A count is read back from its four bytes (R108, R204). -/
theorem recordCount_bytes (c : Word) :
    recordCount (c.extractLsb' 24 8) (c.extractLsb' 16 8) (c.extractLsb' 8 8) (c.extractLsb' 0 8) = c := by
  apply BitVec.eq_of_toNat_eq
  have := c.isLt
  simp only [toNat_recordCount, BitVec.extractLsb'_toNat, Nat.shiftRight_eq_div_pow]
  omega

/-- Five bytes are the record of the pair read from them (R108, R204). -/
theorem recordBytes_recordCount (x b1 b2 b3 b4 : Byte) : recordBytes (x, recordCount b1 b2 b3 b4) = [x, b1, b2, b3, b4] := by
  have hbyte (k : Nat) (b : Byte) (h : (recordCount b1 b2 b3 b4).toNat / 2 ^ k % 2 ^ 8 = b.toNat) :
      (recordCount b1 b2 b3 b4).extractLsb' k 8 = b := by
    apply BitVec.eq_of_toNat_eq
    rw [BitVec.extractLsb'_toNat, Nat.shiftRight_eq_div_pow, h]
  simp only [toNat_recordCount] at hbyte
  rw [recordBytes, hbyte 24 b1 (by omega), hbyte 16 b2 (by omega), hbyte 8 b3 (by omega), hbyte 0 b4 (by omega)]

/-- The record loop takes the records of a table that continues the one read so far (R204). -/
theorem deserRecords_append {ft acc : FreqTable} (rest : List Byte) (hwf : tableWf (acc ++ ft)) :
    deserRecords (ft.flatMap recordBytes ++ rest) acc = deserRecords rest (acc ++ ft) := by
  induction ft generalizing acc with
  | nil => simp
  | cons p ft ih =>
    obtain ⟨x, c⟩ := p
    rw [List.append_cons] at hwf ⊢
    obtain ⟨hnodup, h0⟩ := hwf
    have hcount : c ≠ 0 := by rintro rfl; exact h0 (by simp)
    have hfresh : ¬ acc.any (fun q => q.1 == x) = true := by
      simp only [List.map_append, List.nodup_append] at hnodup
      obtain ⟨⟨-, -, hdisj⟩, -⟩ := hnodup
      intro hmet
      obtain ⟨q, hq, hqx⟩ := List.any_eq_true.1 hmet
      exact hdisj q.1 (List.mem_map_of_mem hq) x List.mem_cons_self (beq_iff_eq.1 hqx)
    rw [← ih ⟨hnodup, h0⟩]
    simp only [List.flatMap_cons, recordBytes, List.cons_append, List.nil_append]
    rw [deserRecords, recordCount_bytes, if_neg hcount, if_neg hfresh]

/-- What the record loop takes are the records of the pairs it adds (R204). -/
theorem deserRecords_ok {bs : List Byte} {acc table : FreqTable} (hlen : bs.length % 5 = 0)
    (h : deserRecords bs acc = .ok table) : ∃ ft, table = acc ++ ft ∧ bs = ft.flatMap recordBytes := by
  fun_induction deserRecords bs acc with
  | case1 => contradiction
  | case2 => contradiction
  | case3 x b1 b2 b3 b4 rest acc hcount hfresh ih =>
    obtain ⟨ft, htable, hrest⟩ := ih (by simp only [List.length_cons] at hlen; omega) h
    refine ⟨(x, recordCount b1 b2 b3 b4) :: ft, by simp [htable], ?_⟩
    rw [List.flatMap_cons, recordBytes_recordCount, hrest]
    rfl
  | case4 bs acc hshort =>
    obtain rfl := Except.ok.inj h
    refine ⟨[], by simp, ?_⟩
    match bs, hshort with
    | [], _ => rfl
    | [_], _ | [_, _], _ | [_, _, _], _ | [_, _, _, _], _ => simp at hlen
    | _ :: _ :: _ :: _ :: _ :: _, hshort => exact absurd rfl (hshort _ _ _ _ _ _)

theorem length_records (ft : FreqTable) : (ft.flatMap recordBytes).length = 5 * ft.length := length_serTable ft

/-- `deser` takes exactly the serialized tables that meet R39 (R201, R204). -/
theorem deserTable_eq_ok_iff {bs : List Byte} {ft : FreqTable} :
    deserTable bs = .ok ft ↔ tableWf ft ∧ bs = ft.flatMap recordBytes := by
  unfold deserTable
  constructor
  · intro h
    split at h
    · contradiction
    · next hlen =>
      obtain ⟨ft', rfl, hbs⟩ := deserRecords_ok (not_not.1 hlen) h
      exact ⟨tableWf_deserRecords tableWf_nil h, hbs⟩
  · rintro ⟨hwf, rfl⟩
    have hrecords := deserRecords_append (acc := []) [] hwf
    rw [if_neg (by rw [length_records]; simp), ← List.append_nil (ft.flatMap recordBytes), hrecords]
    rfl

/-! ### The metadata line -/

/-- A byte from '0' to '7' is a padding digit (R106). -/
theorem padDigit_iff {c : Byte} {k : Nat} :
    ¬ (c.toNat < 0x30 ∨ 0x37 < c.toNat) ∧ c.toNat - 0x30 = k ↔ k ≤ 7 ∧ c = BitVec.ofNat 8 (0x30 + k) := by
  rw [← BitVec.toNat_inj, BitVec.toNat_ofNat]
  omega

/-- Step 4 of R206 takes exactly a padding digit with an LF behind it. -/
theorem parsePadding_eq_ok_iff {buf : List Byte} {len p : Nat} {m : MetaFields} :
    parsePadding buf len p = .ok m ↔
      ∃ pad, pad ≤ 7 ∧ buf[p + 1]? = some (BitVec.ofNat 8 (0x30 + pad)) ∧ buf[p + 2]? = some byteLF ∧ m = ⟨len, pad, p + 3⟩ := by
  constructor
  · intro h
    unfold parsePadding at h
    split at h
    · contradiction
    · next c hc =>
      split at h
      · contradiction
      · next hrange =>
        split at h
        · contradiction
        · next hLF =>
          obtain ⟨hpad, hdigit⟩ := padDigit_iff.1 ⟨hrange, rfl⟩
          exact ⟨_, hpad, hc.trans (congrArg some hdigit), not_not.1 hLF, (Except.ok.inj h).symm⟩
  · rintro ⟨pad, hpad, hc, hLF, rfl⟩
    obtain ⟨hrange, hvalue⟩ := padDigit_iff.2 ⟨hpad, rfl⟩
    simp only [parsePadding, hc, if_neg hrange, hvalue, hLF, ne_eq, not_true_eq_false, if_false]

theorem drop_eq_cons_of_getElem? {bs : List Byte} {p : Nat} {b : Byte} (h : bs[p]? = some b) :
    bs.drop p = b :: bs.drop (p + 1) := by
  obtain ⟨hp, rfl⟩ := List.getElem?_eq_some_iff.1 h
  exact List.drop_eq_getElem_cons hp

/-- The metadata line with a digit text as its length field, leading zeros included (R103, R105). -/
def metaBytes (digits : List Byte) (pad : Nat) : List Byte := digits ++ [0x0A#8, BitVec.ofNat 8 (0x30 + pad), 0x0A#8]

theorem length_metaBytes (digits : List Byte) (pad : Nat) : (metaBytes digits pad).length = digits.length + 3 := by
  simp [metaBytes]

/-- The first LF ends a digit text (R104). -/
theorem findIdx?_byteLF {digits : List Byte} (hdigits : ∀ b ∈ digits, isDigit b) (rest : List Byte) :
    (digits ++ byteLF :: rest).findIdx? (fun b => b == byteLF) = some digits.length := by
  have hnone : digits.findIdx? (fun b => b == byteLF) = none := by
    refine List.findIdx?_eq_none_iff.2 fun b hb => beq_eq_false_iff_ne.2 ?_
    rintro rfl
    exact absurd (hdigits _ hb) (by decide)
  rw [List.findIdx?_append, hnone, List.findIdx?_cons]
  simp

/-- Steps 2 to 4 of R206 take exactly the inputs that begin with a metadata line (R103). -/
theorem parseMeta_eq_ok_iff {buf : List Byte} {m : MetaFields} :
    parseMeta buf = .ok m ↔ ∃ digits pad body, buf = metaBytes digits pad ++ body ∧
      (digits ≠ [] ∧ ∀ b ∈ digits, isDigit b) ∧ pad ≤ 7 ∧ m = ⟨textValue digits, pad, digits.length + 3⟩ := by
  constructor
  · intro h
    unfold parseMeta at h
    split at h
    · contradiction
    · next p hp =>
      split at h
      · contradiction
      · next len hlen =>
        obtain ⟨hplt, hfirst, -⟩ := List.findIdx?_eq_some_iff_getElem.1 hp
        have hLF : buf[p]? = some byteLF := List.getElem?_eq_some_iff.2 ⟨hplt, beq_iff_eq.1 hfirst⟩
        obtain ⟨hdigits, rfl⟩ := undecText_eq_some_iff.1 hlen
        obtain ⟨pad, hpad, hc, hLF', rfl⟩ := parsePadding_eq_ok_iff.1 h
        refine ⟨buf.take p, pad, buf.drop (p + 3), ?_, hdigits, hpad, by rw [List.length_take_of_le hplt.le]⟩
        calc buf = buf.take p ++ buf.drop p := (List.take_append_drop p buf).symm
          _ = metaBytes (buf.take p) pad ++ buf.drop (p + 3) := by
            rw [drop_eq_cons_of_getElem? hLF, drop_eq_cons_of_getElem? hc, drop_eq_cons_of_getElem? hLF', metaBytes,
              List.append_assoc]
            rfl
  · rintro ⟨digits, pad, body, rfl, hdigits, hpad, rfl⟩
    have hbuf : metaBytes digits pad ++ body = digits ++ byteLF :: BitVec.ofNat 8 (0x30 + pad) :: byteLF :: body := by
      rw [metaBytes, List.append_assoc]
      rfl
    have hpadding : parsePadding (metaBytes digits pad ++ body) (textValue digits) digits.length =
        .ok ⟨textValue digits, pad, digits.length + 3⟩ :=
      parsePadding_eq_ok_iff.2 ⟨pad, hpad, by simp [hbuf], by simp [hbuf], rfl⟩
    have hvalue : undecText ((metaBytes digits pad ++ body).take digits.length) = some (textValue digits) := by
      rw [hbuf, List.take_left]
      exact undecText_eq_some_iff.2 ⟨hdigits, rfl⟩
    rw [parseMeta, hbuf, findIdx?_byteLF hdigits.2, ← hbuf]
    simp only [hvalue, hpadding]

/-! ### The segments -/

/-- Steps 5 to 7 of R206 take exactly a serialized table of the announced length with a payload behind it (R201, R207, R208). -/
theorem parseSegments_eq_ok_iff {n : Nat} {buf : List Byte} {m : MetaFields} {p : Parsed} :
    parseSegments n buf m = .ok p ↔
      buf.drop m.tableAt = p.table.flatMap recordBytes ++ p.payload ∧ m.len = 5 * p.table.length ∧ tableWf p.table ∧
        (p.payload = [] → p.pad = 0) ∧ p.payload.length ≤ n ∧ p.hdrLen = m.len ∧ p.pad = m.pad := by
  unfold parseSegments
  rw [← List.length_drop, ← List.drop_drop]
  generalize buf.drop m.tableAt = body
  constructor
  · intro h
    split at h
    · contradiction
    · next hlen =>
      split at h
      · contradiction
      · next table htable =>
        dsimp only at h
        split at h
        · contradiction
        · next hempty =>
          split at h
          · contradiction
          · next hfit =>
            obtain rfl := Except.ok.inj h
            obtain ⟨hwf, hrecords⟩ := deserTable_eq_ok_iff.1 htable
            have hlength : m.len = 5 * table.length := by
              rw [← length_records, ← hrecords, List.length_take_of_le (not_lt.1 hlen)]
            refine ⟨?_, hlength, hwf, fun hnil => ?_, not_lt.1 hfit, rfl, rfl⟩
            · rw [← hrecords, List.take_append_drop]
            · exact not_not.1 fun hpad => hempty ⟨List.length_eq_zero_iff.2 hnil, hpad⟩
  · obtain ⟨table, hdrLen, pad, payload⟩ := p
    rintro ⟨hbody, hlen, hwf, hempty, hfit, hhdr, hpad⟩
    dsimp only at *
    have hlength : (table.flatMap recordBytes).length = m.len := by rw [length_records, hlen]
    have htable : deserTable (body.take m.len) = .ok table :=
      deserTable_eq_ok_iff.2 ⟨hwf, by rw [hbody, List.take_left' hlength]⟩
    have hpayload : body.drop m.len = payload := by rw [hbody, List.drop_left' hlength]
    have henough : ¬ m.len > body.length := by
      rw [hbody, List.length_append]
      omega
    have hzero : ¬ (payload.length = 0 ∧ m.pad ≠ 0) := fun ⟨hnil, hne⟩ =>
      hne (hpad ▸ hempty (List.length_eq_zero_iff.1 hnil))
    simp only [if_neg henough, htable, hpayload, if_neg hzero, if_neg (not_lt.2 hfit)]
    rw [hhdr, hpad]

/-- CC_PARSE takes exactly the containers whose payload fits, and gives their parts (R206, R208). -/
theorem parseContainer_eq_ok_iff {n : Nat} {buf : List Byte} {p : Parsed} :
    parseContainer n buf = .ok p ↔
      ∃ digits, isContainer buf digits p.pad p.table p.payload ∧ p.payload.length ≤ n ∧ p.hdrLen = 5 * p.table.length := by
  have hdrop (digits body : List Byte) (pad : Nat) : (metaBytes digits pad ++ body).drop (digits.length + 3) = body :=
    List.drop_left' (length_metaBytes digits pad)
  constructor
  · intro h
    unfold parseContainer at h
    split at h
    · contradiction
    · next m hm =>
      obtain ⟨digits, pad, body, rfl, ⟨hne, hdigits⟩, hpad, rfl⟩ := parseMeta_eq_ok_iff.1 hm
      obtain ⟨hbody, hlen, hwf, hempty, hfit, hhdr, rfl⟩ := parseSegments_eq_ok_iff.1 h
      rw [hdrop] at hbody
      refine ⟨digits, ⟨?_, hne, hdigits, hlen, hwf, hpad, hempty⟩, hfit, hhdr.trans hlen⟩
      rw [hbody, ← List.append_assoc]
      rfl
  · rintro ⟨digits, ⟨hbuf, hne, hdigits, hlen, hwf, hpad, hempty⟩, hfit, hhdr⟩
    have hbuf : buf = metaBytes digits p.pad ++ (p.table.flatMap recordBytes ++ p.payload) := by
      rw [hbuf, ← List.append_assoc]
      rfl
    have hmeta : parseMeta buf = .ok ⟨textValue digits, p.pad, digits.length + 3⟩ :=
      parseMeta_eq_ok_iff.2 ⟨digits, p.pad, _, hbuf, ⟨hne, hdigits⟩, hpad, rfl⟩
    simp only [parseContainer, hmeta]
    exact parseSegments_eq_ok_iff.2 ⟨hbuf ▸ hdrop _ _ _, hlen, hwf, hempty, hfit, hhdr.trans hlen.symm, rfl⟩

/-! ### The command -/

/-- CC_PARSE succeeds exactly on an input that fits IBUF and that the parser takes, and commits what it gives (R206). -/
theorem ccParseBody_eq_ok_iff {s u : State} :
    ccParseBody s = .ok u ↔ s.inLen.toNat ≤ s.cfg.ibufSize ∧
      ∃ p, parseContainer s.cfg.pbufSize s.input = .ok p ∧ u = s.invalidate.commitParse p := by
  rw [ccParseBody, check_eq_ok]
  refine and_congr (by simp [State.inputTooLong]) ?_
  cases parseContainer s.cfg.pbufSize s.input with
  | ok p => simp [eq_comm]
  | error e => simp

/-- The committed payload is read back (R206). -/
theorem payload_commitParse (s : State) (p : Parsed) : (s.commitParse p).payload = p.payload :=
  State.bytesAt_of_writeList (b := .pbuf) (m := s.pbuf) rfl

/-- Settles O39: the parser takes exactly the containers, and the commit stores their parts. -/
theorem ccParseTakesExactlyContainers : Obligations.CcParseTakesExactlyContainers := by
  refine ⟨rfl, fun s digits pad ft payload hlen hcontainer hfit => ?_, fun s t h hdone => ?_⟩
  · have hbody : commandBody .ccParse s = .ok (s.invalidate.commitParse ⟨ft, 5 * ft.length, pad, payload⟩) :=
      ccParseBody_eq_ok_iff.2 ⟨hlen, _, parseContainer_eq_ok_iff.2 ⟨digits, hcontainer, hfit, rfl⟩, rfl⟩
    refine ⟨_, by rw [exec_eq_finish, hbody, finish_ok], rfl, payload_commitParse _ _⟩
  · obtain ⟨u, hbody, rfl⟩ := commandBody_ok_of_done h hdone
    obtain ⟨hlen, p, hparse, rfl⟩ := ccParseBody_eq_ok_iff.1 hbody
    obtain ⟨digits, hcontainer, hfit, -⟩ := parseContainer_eq_ok_iff.1 hparse
    exact ⟨hlen, digits, p.pad, p.table, p.payload, hcontainer, hfit, rfl, rfl, payload_commitParse _ _⟩

end Sys2Proof.Machine
end

section
/-! PROOFS. FT_BUILD (R130 to R133): the table of an input holds the input's symbols in the order of their first occurrence, each
with its number of occurrences. Every fact goes by the input's symbols in order, the last one counted into the table of those
before it. -/

namespace Sys2Proof.Machine

theorem buildTable_concat (xs : List Byte) (x : Byte) : buildTable (xs ++ [x]) = countSymbol (buildTable xs) x :=
  List.foldl_concat ..

/-! ### The symbols of the table -/

theorem mem_keys_countSymbol {ft : FreqTable} {x y : Byte} :
    y ∈ (countSymbol ft x).map Prod.fst ↔ y ∈ ft.map Prod.fst ∨ y = x := by
  rw [keys_countSymbol]
  split
  · next hx => exact ⟨.inl, fun h => h.elim id (fun hy => hy ▸ hx)⟩
  · rw [List.mem_append, List.mem_singleton]

/-- The symbols of the table are those of the input (R132). -/
theorem mem_keys_buildTable {xs : List Byte} {y : Byte} : y ∈ (buildTable xs).map Prod.fst ↔ y ∈ xs := by
  induction xs using List.reverseRecOn with
  | nil => rfl
  | append_singleton xs x ih =>
    rw [buildTable_concat, mem_keys_countSymbol, ih, List.mem_append, List.mem_singleton]

/-- The symbols of the table stand in the order of their first occurrence (R131): a symbol seen before keeps its place, and a new
one stands last. -/
theorem pairwise_idxOf_keys_buildTable (xs : List Byte) :
    ((buildTable xs).map Prod.fst).Pairwise (fun y z => xs.idxOf y < xs.idxOf z) := by
  induction xs using List.reverseRecOn with
  | nil => exact .nil
  | append_singleton xs x ih =>
    have hold {y : Byte} (hy : y ∈ (buildTable xs).map Prod.fst) : (xs ++ [x]).idxOf y = xs.idxOf y :=
      List.idxOf_append_of_mem (mem_keys_buildTable.1 hy)
    have hkeys : ((buildTable xs).map Prod.fst).Pairwise (fun y z => (xs ++ [x]).idxOf y < (xs ++ [x]).idxOf z) :=
      ih.imp_of_mem fun hy hz h => by rwa [hold hy, hold hz]
    rw [buildTable_concat, keys_countSymbol]
    split
    · exact hkeys
    · next hx =>
      refine List.pairwise_append.2 ⟨hkeys, List.pairwise_singleton _ _, fun y hy z hz => ?_⟩
      obtain rfl := List.mem_singleton.1 hz
      have hlt : xs.idxOf y < xs.length := List.idxOf_lt_length_of_mem (mem_keys_buildTable.1 hy)
      rw [hold hy, List.idxOf_append_of_notMem (fun h => hx (mem_keys_buildTable.2 h))]
      omega

/-! ### The counts of the table -/

/-- Everything that stands in a table after a symbol is counted: what stood there of other symbols, and the symbol with its count
one larger, or with 1 if it is new (R130). -/
theorem mem_countSymbol {ft : FreqTable} {x : Byte} {p : Byte × Word} (hnodup : (ft.map Prod.fst).Nodup)
    (hp : p ∈ countSymbol ft x) :
    (p ∈ ft ∧ p.1 ≠ x) ∨ (∃ c, (x, c) ∈ ft ∧ p = (x, c + 1)) ∨ (x ∉ ft.map Prod.fst ∧ p = (x, 1)) := by
  induction ft with
  | nil => exact .inr (.inr ⟨List.not_mem_nil, List.mem_singleton.1 hp⟩)
  | cons q ft ih =>
    obtain ⟨y, c⟩ := q
    obtain ⟨hy, hnodup⟩ := List.nodup_cons.1 hnodup
    simp only [countSymbol] at hp
    split at hp
    · next hyx =>
      obtain rfl := hyx
      rcases List.mem_cons.1 hp with rfl | hp
      · exact .inr (.inl ⟨c, List.mem_cons_self, rfl⟩)
      · exact .inl ⟨List.mem_cons_of_mem _ hp, fun h => hy (List.mem_map.2 ⟨p, hp, h⟩)⟩
    · next hyx =>
      rcases List.mem_cons.1 hp with rfl | hp
      · exact .inl ⟨List.mem_cons_self, hyx⟩
      · rcases ih hnodup hp with ⟨hp, hne⟩ | ⟨d, hd, rfl⟩ | ⟨hx, rfl⟩
        · exact .inl ⟨List.mem_cons_of_mem _ hp, hne⟩
        · exact .inr (.inl ⟨d, List.mem_cons_of_mem _ hd, rfl⟩)
        · exact .inr (.inr ⟨fun h => (List.mem_cons.1 h).elim (fun h => hyx h.symm) hx, rfl⟩)

/-- Each symbol has its number of occurrences (R132), as no count wraps (R133). -/
theorem toNat_snd_of_mem_buildTable {xs : List Byte} (hlen : xs.length < 2 ^ 32) {p : Byte × Word} (hp : p ∈ buildTable xs) :
    p.2.toNat = xs.count p.1 := by
  induction xs using List.reverseRecOn generalizing p with
  | nil => contradiction
  | append_singleton xs x ih =>
    rw [List.length_append, List.length_singleton] at hlen
    replace ih {p : Byte × Word} (hp : p ∈ buildTable xs) : p.2.toNat = xs.count p.1 := ih (by omega) hp
    obtain ⟨hnodup, -⟩ := tableWf_buildTable (xs := xs) (by omega)
    rw [buildTable_concat] at hp
    rw [List.count_append]
    rcases mem_countSymbol hnodup hp with ⟨hp, hne⟩ | ⟨c, hc, rfl⟩ | ⟨hx, rfl⟩
    · rw [ih hp, List.count_singleton, if_neg (by simpa using Ne.symm hne), Nat.add_zero]
    · have hcount : c.toNat = xs.count x := ih hc
      have hle : xs.count x ≤ xs.length := List.count_le_length
      rw [toNat_add_one (by omega), hcount, List.count_singleton_self]
    · rw [List.count_eq_zero_of_not_mem (fun h => hx (mem_keys_buildTable.2 h)), List.count_singleton_self]
      rfl

/-- The counts add up to the length of the input (R132). -/
theorem countSum_buildTable {xs : List Byte} (hlen : xs.length < 2 ^ 32) : countSum (buildTable xs) = xs.length := by
  induction xs using List.reverseRecOn with
  | nil => rfl
  | append_singleton xs x ih =>
    rw [List.length_append, List.length_singleton] at hlen ⊢
    replace ih := ih (by omega)
    rw [buildTable_concat, countSum_countSymbol x (by rw [ih]; exact hlen), ih]

/-! ### The command -/

@[simp] theorem length_input (s : State) : s.input.length = s.inLen.toNat := by
  simp [State.input]

/-- FT_BUILD of an input that fits IBUF commits the input's table and clears the valid flags (R29, R130, R131). -/
theorem ftBuildBody_of_fits {s : State} (hlen : s.inLen.toNat ≤ s.cfg.ibufSize) :
    ftBuildBody s = .ok { s.invalidate with ft := buildTable s.input } :=
  check_eq_ok.2 ⟨by simpa [State.inputTooLong] using hlen, rfl⟩

/-- Settles O20: the table is the one built from the input. -/
theorem ftBuildCountsSymbols : Obligations.FtBuildCountsSymbols := by
  intro s hlen
  have hinput : s.input.length < 2 ^ 32 := length_input_lt s
  have hexec : exec .ftBuild s = finish s (.ok { s.invalidate with ft := buildTable s.input }) := by
    rw [exec_eq_finish, commandBody, ftBuildBody_of_fits hlen]
  obtain ⟨hnodup, -⟩ := tableWf_buildTable hinput
  exact ⟨buildTable s.input, hexec, hnodup, fun _ => mem_keys_buildTable, fun _ => toNat_snd_of_mem_buildTable hinput,
    (countSum_buildTable hinput).trans (length_input s), pairwise_idxOf_keys_buildTable s.input⟩

end Sys2Proof.Machine
end

section
/-! PROOFS. The commands of the priority queue (R140 to R144): PQ_ENQ splits a sorted queue at the weight of its entry, PQ_DEQ takes
the head, PQ_SIZE and PQ_EMPTY report the length. -/

namespace Sys2Proof.Machine

/-! ### How a command ends -/

/-- A command whose pseudocode succeeds completes (R90 step 6). -/
theorem exec_of_commandBody_ok {i : Instr} {s u : State} (h : commandBody i s = .ok u) : exec i s = .next u.complete := by
  rw [exec_eq_finish, h, finish_ok]

/-- A command whose pseudocode raises an error takes the error entry of R256. -/
theorem exec_of_commandBody_error {i : Instr} {s : State} {e : CmdError} (h : commandBody i s = .error e) :
    exec i s = .next (afterError s e.kind.code (BitVec.ofNat 32 e.info)) := by
  rw [exec_eq_finish, h, finish_error]
  rfl

/-! ### PQ_ENQ -/

/-- The word of an instruction without a second operand is its opcode with the operand above the opcode's byte (R91, R92). -/
theorem encode_eq_or_operandA {i : Instr} (hwf : i.wf = true) (hB : i.operandB = 0) :
    encode i = i.opcode.code.setWidth 32 ||| BitVec.ofNat 32 i.operandA <<< 8 := by
  obtain ⟨-, ha, -⟩ := operands_lt hwf
  have hoperand : (BitVec.ofNat 32 i.operandA <<< 8).toNat = i.operandA <<< 8 := by
    rw [BitVec.toNat_shiftLeft, BitVec.toNat_ofNat, Nat.shiftLeft_eq, Nat.shiftLeft_eq]
    omega
  apply BitVec.eq_of_toNat_eq
  rw [toNat_encode hwf, hB, BitVec.toNat_or, BitVec.toNat_setWidth_of_le (by decide), hoperand, Nat.or_comm,
    ← Nat.shiftLeft_add_eq_or_of_lt i.opcode.code.isLt, Nat.shiftLeft_eq]
  omega

/-- The head of a sorted queue is its lightest entry (R43). -/
theorem head_weight_le {x y : PqEntry} {q : List PqEntry} (hsorted : queueSorted (x :: q)) (hy : y ∈ q) : x.weight ≤ y.weight :=
  (List.pairwise_cons.1 hsorted).1 y hy

/-- In a sorted queue whose head is heavier than a weight, every entry is. -/
theorem weight_lt_of_head {x : PqEntry} {q : List PqEntry} {w : Nat} (hsorted : queueSorted (x :: q)) (hx : w < x.weight) :
    ∀ y ∈ x :: q, w < y.weight :=
  List.forall_mem_cons.2 ⟨hx, fun _ hy => hx.trans_le (head_weight_le hsorted hy)⟩

/-- An enqueue splits a sorted queue at the weight of its entry (R140). -/
theorem exists_split_pqInsert {q : List PqEntry} (e : PqEntry) (hsorted : queueSorted q) :
    ∃ before after, q = before ++ after ∧ (∀ x ∈ before, x.weight ≤ e.weight) ∧ (∀ x ∈ after, e.weight < x.weight) ∧
      pqInsert q e = before ++ e :: after := by
  induction q with
  | nil => exact ⟨[], [], rfl, nofun, nofun, rfl⟩
  | cons x q ih =>
    by_cases hx : x.weight ≤ e.weight
    · obtain ⟨before, after, hq, hbefore, hafter, hinsert⟩ := ih hsorted.of_cons
      refine ⟨x :: before, after, by rw [hq, List.cons_append], List.forall_mem_cons.2 ⟨hx, hbefore⟩, hafter, ?_⟩
      rw [pqInsert_cons_of_le q hx, hinsert, List.cons_append]
    · have hheavy := weight_lt_of_head hsorted (Nat.lt_of_not_le hx)
      exact ⟨[], x :: q, rfl, nofun, hheavy, pqInsert_of_lt hheavy⟩

/-- PQ_ENQ checks its operand first (R141). -/
theorem commandBody_pqEnq_of_not_allocated {s : State} {a : Nat} (ha : s.node.length ≤ a) :
    commandBody (.pqEnq a) s = .error (preconditionError 2) := by
  have hfree : s.allocated a = false := decide_eq_false ha.not_gt
  rw [commandBody, pqEnqBody, hfree]
  rfl

/-- PQ_ENQ of an allocated node checks the capacity of the queue (R141). -/
theorem commandBody_pqEnq_of_allocated {s : State} {a : Nat} (ha : a < s.node.length) :
    commandBody (.pqEnq a) s = if s.pq.length = Config.pqCap then .error (capacityError 1) else
      .ok { s with
        pq := pqInsert s.pq ⟨weightAt s.node a, a⟩
        res0 := BitVec.ofNat 32 (pqInsert s.pq ⟨weightAt s.node a, a⟩).length } := by
  rw [commandBody, pqEnqBody, allocated_eq_true.2 ha]
  rfl

/-- Settles O25: the checks in their order, and the place that an enqueue finds in a sorted queue. -/
theorem pqEnqInsertsInOrder : Obligations.PqEnqInsertsInOrder := by
  refine ⟨fun a ha => ?_, fun a s => ⟨fun hfree => ?_, fun ha hfull => ?_, fun n hn hroom hsorted => ?_⟩⟩
  · have hwf : (Instr.pqEnq a).wf = true := decide_eq_true ha
    exact (congrArg decode (encode_eq_or_operandA hwf rfl)).symm.trans (decodeOfEncode _ hwf)
  · exact exec_of_commandBody_error (commandBody_pqEnq_of_not_allocated hfree)
  · exact exec_of_commandBody_error ((commandBody_pqEnq_of_allocated ha).trans (if_pos hfull))
  · obtain ⟨before, after, hq, hbefore, hafter, hinsert⟩ := exists_split_pqInsert ⟨n.weight, a⟩ hsorted
    have ha : a < s.node.length := (List.getElem?_eq_some_iff.1 hn).1
    refine ⟨before, after, hq, hbefore, hafter,
      (exec_of_commandBody_ok ((commandBody_pqEnq_of_allocated ha).trans (if_neg hroom))).trans ?_⟩
    rw [weightAt_of_getElem? hn, length_pqInsert, hinsert]
    rfl

/-! ### PQ_DEQ -/

/-- PQ_DEQ of an empty queue raises PreconditionError(7) (R142). -/
theorem commandBody_pqDeq_nil {s : State} (hq : s.pq = []) : commandBody .pqDeq s = .error (preconditionError 7) := by
  simp [commandBody, pqDeqBody, hq, pqRemoveHead]

/-- PQ_DEQ takes the head and reports it (R142). -/
theorem commandBody_pqDeq_cons {s : State} {e : PqEntry} {q : List PqEntry} (hq : s.pq = e :: q) :
    commandBody .pqDeq s = .ok { s with
      pq := q, res0 := BitVec.ofNat 32 e.idx
      res1 := BitVec.ofNat 32 e.weight, res2 := BitVec.ofNat 32 (e.weight / 2 ^ 32) } := by
  simp [commandBody, pqDeqBody, hq, pqRemoveHead]

/-- The word of a number is that of its low 32 bits. -/
theorem ofNat_mod_word (n : Nat) : BitVec.ofNat 32 (n % 2 ^ 32) = BitVec.ofNat 32 n := BitVec.eq_of_toNat_eq (by simp)

/-- Settles O26: the low word of the weight is the weight modulo `2 ^ 32`, and the head of a sorted queue is its least entry. -/
theorem pqDeqRemovesHead : Obligations.PqDeqRemovesHead := by
  refine ⟨rfl, fun s => ⟨fun hempty => ?_, fun e q hq => ⟨?_, fun hsorted x hx => ?_⟩⟩⟩
  · exact exec_of_commandBody_error (commandBody_pqDeq_nil hempty)
  · rw [exec_of_commandBody_ok (commandBody_pqDeq_cons hq), ofNat_mod_word]
    rfl
  · exact head_weight_le (hq ▸ hsorted) hx

/-! ### PQ_SIZE and PQ_EMPTY -/

/-- PQ_EMPTY reports 1 exactly for a queue of length 0 (R144). -/
theorem ofNat_flagBit_pqEmpty (s : State) : BitVec.ofNat 32 (flagBit s.pqEmpty 0) = if s.pq.length = 0 then 1 else 0 := by
  rw [pqEmpty_eq, flagBit]
  by_cases h : s.pq.length = 0 <;> simp [h]

/-- Settles O27: the number and the flag are those that the mirrors read. -/
theorem pqSizeAndPqEmptyReport : Obligations.PqSizeAndPqEmptyReport := by
  refine ⟨⟨rfl, rfl⟩, fun s => ⟨rfl, ?_, rfl, ?_⟩⟩
  · rw [← ofNat_flagBit_pqEmpty]
    rfl
  · exact (getLsbD_statusWord s 5).trans (pqEmpty_eq s)

end Sys2Proof.Machine
end


section
/-! PROOFS. The commands of the node store (R153 to R156): ND_LEAF and ND_JOIN allocate a node, TR_SET names a root, each after its
checks in their order. -/

namespace Sys2Proof.Machine

/-! ### Parents and leaves -/

/-- The search of `has_parent` finds the parents there are (R41). -/
theorem hasParent_eq_true_iff {nodes : List Node} {i : Nat} : hasParent nodes i = true ↔ HasParent nodes i := by
  rw [hasParent, List.any_eq_true]
  constructor
  · rintro ⟨n, hn, hp⟩
    cases n with
    | leaf x w => contradiction
    | internal w l r => exact ⟨w, l, r, hn, by simpa [Node.isParentOf] using hp⟩
  · rintro ⟨w, l, r, hn, hp⟩
    exact ⟨_, hn, by simpa [Node.isParentOf] using hp⟩

theorem hasParent_eq_false_iff {nodes : List Node} {i : Nat} : hasParent nodes i = false ↔ ¬ HasParent nodes i := by
  rw [← hasParent_eq_true_iff, Bool.not_eq_true]

/-- The search of `has_leaf` finds the leaf there is (R41). -/
theorem hasLeaf_eq_true_iff {nodes : List Node} {x : Byte} : hasLeaf nodes x = true ↔ HasLeaf nodes x := by
  rw [hasLeaf, List.any_eq_true]
  constructor
  · rintro ⟨n, hn, hx⟩
    cases n with
    | leaf y w =>
      obtain rfl : y = x := by simpa [Node.isLeafOf] using hx
      exact ⟨w, hn⟩
    | internal w l r => contradiction
  · rintro ⟨w, hn⟩
    exact ⟨_, hn, beq_self_eq_true x⟩

theorem hasLeaf_eq_false_iff {nodes : List Node} {x : Byte} : hasLeaf nodes x = false ↔ ¬ HasLeaf nodes x := by
  rw [← hasLeaf_eq_true_iff, Bool.not_eq_true]

theorem allocated_eq_false {s : State} {a : Nat} : s.allocated a = false ↔ s.node.length ≤ a := by
  rw [← Bool.not_eq_true, allocated_eq_true, Nat.not_lt]

/-! ### ND_LEAF -/

/-- ND_LEAF of a weight that is not 0 checks the symbol (R153). -/
theorem commandBody_ndLeaf_of_weight {s : State} {x : Byte} (hweight : s.arg0 ≠ 0) :
    commandBody (.ndLeaf x) s =
      if hasLeaf s.node x = true then .error (preconditionError 4) else .ok (s.allocate (.leaf x s.arg0.toNat)) :=
  if_neg hweight

/-- ND_LEAF of a weight that is not 0 and a fresh symbol allocates the leaf (R153). -/
theorem exec_ndLeaf_of_fresh {s : State} {x : Byte} (hweight : s.arg0 ≠ 0) (hfresh : hasLeaf s.node x = false) :
    exec (.ndLeaf x) s = .next (s.allocate (.leaf x s.arg0.toNat)).complete :=
  exec_of_commandBody_ok ((commandBody_ndLeaf_of_weight hweight).trans (if_neg (by simp [hfresh])))

/-- Settles O22: the checks in their order, and the leaf allocated when they pass. -/
theorem ndLeafAllocatesLeaf : Obligations.NdLeafAllocatesLeaf := by
  refine ⟨fun x => ?_, fun x s => ⟨fun hweight => ?_, fun hweight hleaf => ?_, fun hweight hfresh => ?_⟩⟩
  · have hword := encode_eq_or_operandA (i := .ndLeaf x) rfl rfl
    rw [Instr.operandA, BitVec.ofNat_toNat] at hword
    exact (congrArg decode hword).symm.trans (decodeOfEncode _ rfl)
  · exact exec_of_commandBody_error (e := preconditionError 3) (if_pos hweight)
  · exact exec_of_commandBody_error
      ((commandBody_ndLeaf_of_weight hweight).trans (if_pos (hasLeaf_eq_true_iff.2 hleaf)))
  · exact exec_ndLeaf_of_fresh hweight (hasLeaf_eq_false_iff.2 hfresh)

/-! ### ND_JOIN -/

/-- A number that still fits a word when it is shifted up loses no bit. -/
theorem toNat_ofNat_shiftLeft {v k : Nat} (h : v * 2 ^ k < 2 ^ 32) : (BitVec.ofNat 32 v <<< k).toNat = v <<< k := by
  have hv : v < 2 ^ 32 := (Nat.le_mul_of_pos_right v (Nat.two_pow_pos k)).trans_lt h
  rw [BitVec.toNat_shiftLeft, toNat_ofNat_of_lt hv, Nat.shiftLeft_eq, Nat.mod_eq_of_lt h]

/-- The word of an instruction is its opcode with its operands above the opcode's byte, each in its field (R91, R92). -/
theorem encode_eq_or_operands {i : Instr} (hwf : i.wf = true) :
    encode i = i.opcode.code.setWidth 32 ||| BitVec.ofNat 32 i.operandA <<< 8 ||| BitVec.ofNat 32 i.operandB <<< 17 := by
  obtain ⟨-, ha, hb⟩ := operands_lt hwf
  have hcode := i.opcode.code.isLt
  have hA : (BitVec.ofNat 32 i.operandA <<< 8).toNat = i.operandA <<< 8 := toNat_ofNat_shiftLeft (by omega)
  have hB : (BitVec.ofNat 32 i.operandB <<< 17).toNat = i.operandB <<< 17 := toNat_ofNat_shiftLeft (by omega)
  have hlow : i.operandA <<< 8 + i.opcode.code.toNat < 2 ^ 17 := by
    rw [Nat.shiftLeft_eq]
    omega
  apply BitVec.eq_of_toNat_eq
  rw [toNat_encode hwf, BitVec.toNat_or, BitVec.toNat_or, BitVec.toNat_setWidth_of_le (by decide), hA, hB,
    Nat.or_comm i.opcode.code.toNat, ← Nat.shiftLeft_add_eq_or_of_lt hcode, Nat.or_comm,
    ← Nat.shiftLeft_add_eq_or_of_lt hlow, Nat.shiftLeft_eq, Nat.shiftLeft_eq]
  omega

/-- ND_JOIN checks first that its operands are allocated (R155). -/
theorem commandBody_ndJoin_of_not_allocated {s : State} {a b : Nat} (h : s.node.length ≤ a ∨ s.node.length ≤ b) :
    commandBody (.ndJoin a b) s = .error (preconditionError 2) := by
  simp only [← allocated_eq_false] at h
  exact if_pos (by simpa using h)

/-- ND_JOIN checks next that its operands differ (R155). -/
theorem commandBody_ndJoin_of_allocated {s : State} {a b : Nat} (ha : a < s.node.length) (hb : b < s.node.length) :
    commandBody (.ndJoin a b) s =
      if a = b then .error (preconditionError 5)
      else if (hasParent s.node a || hasParent s.node b) = true then .error (preconditionError 6)
      else .ok (s.allocate (joinNode s.node a b)) :=
  if_neg (by simp [allocated_eq_true.2 ha, allocated_eq_true.2 hb])

/-- ND_JOIN of two parentless nodes allocates their join (R155). -/
theorem exec_ndJoin_of_parentless {s : State} {a b : Nat} (ha : a < s.node.length) (hb : b < s.node.length) (hne : a ≠ b)
    (hpa : hasParent s.node a = false) (hpb : hasParent s.node b = false) :
    exec (.ndJoin a b) s = .next (s.allocate (joinNode s.node a b)).complete := by
  apply exec_of_commandBody_ok
  rw [commandBody_ndJoin_of_allocated ha hb, if_neg hne, if_neg (by simp [hpa, hpb])]

/-- The join of two allocated nodes: the lighter one is left, on equal weights the first operand (R154). -/
theorem joinNode_eq {nodes : List Node} {a b : Nat} {na nb : Node} (ha : nodes[a]? = some na) (hb : nodes[b]? = some nb) :
    joinNode nodes a b = .internal (na.weight + nb.weight) (if na.weight ≤ nb.weight then a else b)
      (if na.weight ≤ nb.weight then b else a) := by
  simp only [joinNode, weightAt_of_getElem? ha, weightAt_of_getElem? hb]
  split <;> rfl

/-- Settles O23: the checks in their order, and the join allocated when they pass. -/
theorem ndJoinAllocatesInternal : Obligations.NdJoinAllocatesInternal := by
  refine ⟨fun a b ha hb => ?_, fun a b s => ⟨fun hfree => ?_, fun ha hab => ?_, fun ha hb hne hpar => ?_, ?_⟩⟩
  · have hwf : (Instr.ndJoin a b).wf = true := by simp [Instr.wf, nodeOperandFits, ha, hb]
    exact (congrArg decode (encode_eq_or_operands hwf)).symm.trans (decodeOfEncode _ hwf)
  · exact exec_of_commandBody_error (commandBody_ndJoin_of_not_allocated hfree)
  · exact exec_of_commandBody_error ((commandBody_ndJoin_of_allocated ha (hab ▸ ha)).trans (if_pos hab))
  · simp only [← hasParent_eq_true_iff] at hpar
    exact exec_of_commandBody_error
      (((commandBody_ndJoin_of_allocated ha hb).trans (if_neg hne)).trans (if_pos (by simpa using hpar)))
  · intro na nb ha hb hne hpa hpb
    rw [← joinNode_eq ha hb]
    exact exec_ndJoin_of_parentless (List.getElem?_eq_some_iff.1 ha).1 (List.getElem?_eq_some_iff.1 hb).1 hne
      (hasParent_eq_false_iff.2 hpa) (hasParent_eq_false_iff.2 hpb)

/-! ### TR_SET -/

/-- TR_SET of an allocated node checks that it has no parent (R156). -/
theorem commandBody_trSet_of_allocated {s : State} {a : Nat} (ha : a < s.node.length) :
    commandBody (.trSet a) s = if hasParent s.node a = true then .error (preconditionError 6) else
      .ok { s with root := a, treeValid := true, ctValid := false } :=
  if_neg (by simp [allocated_eq_true.2 ha])

/-- TR_SET of a parentless node makes it the root (R156). -/
theorem exec_trSet_of_parentless {s : State} {a : Nat} (ha : a < s.node.length) (hpa : hasParent s.node a = false) :
    exec (.trSet a) s = .next
      { s with root := a, treeValid := true, ctValid := false, done := true, running := none } :=
  exec_of_commandBody_ok ((commandBody_trSet_of_allocated ha).trans (if_neg (by simp [hpa])))

/-- Settles O24: the checks in their order, and the root named when they pass. -/
theorem trSetNamesRoot : Obligations.TrSetNamesRoot := by
  refine ⟨fun a ha => ?_, fun a s => ⟨fun hfree => ?_, fun ha hpar => ?_, fun ha hpa => ?_⟩⟩
  · have hwf : (Instr.trSet a).wf = true := decide_eq_true ha
    exact (congrArg decode (encode_eq_or_operandA hwf rfl)).symm.trans (decodeOfEncode _ hwf)
  · exact exec_of_commandBody_error (e := preconditionError 2) (if_pos (by simp [allocated_eq_false.2 hfree]))
  · exact exec_of_commandBody_error
      ((commandBody_trSet_of_allocated ha).trans (if_pos (hasParent_eq_true_iff.2 hpar)))
  · exact exec_trSet_of_parentless ha (hasParent_eq_false_iff.2 hpa)

end Sys2Proof.Machine
end

section
/-! PROOFS. TB_BUILD is the host program of the primitives (R158): both allocate the same nodes and queue the same entries round by
round, so a state that differs from the first one in store, queue and host-visible scratch only is carried from one round to the
next. -/

namespace Sys2Proof.Machine

/-! ### The rounds of TB_BUILD -/

/-- One merge that would find a single entry does nothing, so the bound of the loop may be lowered to the merges that are made
(R157: one less than pairs). -/
theorem mergeQueue_succ_of_length_le (n : Nat) {nodes : List Node} {q : List PqEntry} (h : q.length ≤ n + 1) :
    mergeQueue (n + 1) nodes q = mergeQueue n nodes q := by
  induction n generalizing nodes q with
  | zero =>
    rcases q with _ | ⟨e, _ | ⟨f, q⟩⟩
    · rfl
    · rfl
    · simp at h
  | succ n ih =>
    rcases q with _ | ⟨e, _ | ⟨f, q⟩⟩
    · rfl
    · rfl
    · rw [mergeQueue, mergeQueue, ih]
      rw [length_pqInsert]
      simpa using h

/-- The tree of a table of `n + 1` pairs is made by `n` merges. -/
theorem buildTree_eq_mergeQueue {ft : FreqTable} {n : Nat} (h : ft.length = n + 1) :
    buildTree ft = mergeQueue n (seedLeaves ft [] []).1 (seedLeaves ft [] []).2 := by
  have hlen : (seedLeaves ft [] []).2.length = n + 1 := by rw [length_seedLeaves, h, List.length_nil, Nat.zero_add]
  rw [buildTree, hlen]
  exact mergeQueue_succ_of_length_le n hlen.le

/-- Each merge takes two entries and queues one. -/
theorem length_mergeQueue (n : Nat) {nodes : List Node} {q : List PqEntry} (h : q.length = n + 1) :
    (mergeQueue n nodes q).2.length = 1 := by
  induction n generalizing nodes q with
  | zero => exact h
  | succ n ih =>
    rcases q with _ | ⟨e, _ | ⟨f, q⟩⟩
    · simp at h
    · simp at h
    · refine ih ?_
      rw [length_pqInsert]
      simpa using h

/-- When TB_BUILD ends its merges one entry is left, the root's (R157). -/
theorem exists_queue_buildTree {ft : FreqTable} (hft : ft ≠ []) : ∃ e, (buildTree ft).2 = [e] := by
  obtain ⟨n, hlen⟩ := Nat.exists_eq_add_one.2 (List.length_pos_iff.2 hft)
  rw [← List.length_eq_one_iff, buildTree_eq_mergeQueue hlen]
  exact length_mergeQueue n (by rw [length_seedLeaves, hlen, List.length_nil, Nat.zero_add])

/-- The queued nodes are different nodes of the store. -/
theorem ForestWf.length_queue_le {nodes : List Node} {q : List PqEntry} (h : ForestWf nodes q) : q.length ≤ nodes.length := by
  have hsub : q.map PqEntry.idx ⊆ List.range nodes.length := by
    intro i hi
    obtain ⟨e, he, rfl⟩ := List.mem_map.1 hi
    exact List.mem_range.2 (h.entry e he).1
  simpa using (h.distinct.subperm hsub).length_le

/-! ### States that differ in the builder's structures only -/

/-- What the host program of R158 writes beside the store, the queue and the tree: the operand and result registers, and the
completion flags. -/
structure Scratch where
  arg0 : Word
  res0 : Word
  res1 : Word
  res2 : Word
  done : Bool
  running : Option Word

/-- The state with another store and queue, and other scratch values. -/
def State.inBuild (s : State) (nodes : List Node) (q : List PqEntry) (r : Scratch) : State :=
  { s with
    node := nodes, pq := q, arg0 := r.arg0, res0 := r.res0, res1 := r.res1, res2 := r.res2
    done := r.done, running := r.running }

/-- The scratch values that a state holds. -/
def State.scratch (s : State) : Scratch := ⟨s.arg0, s.res0, s.res1, s.res2, s.done, s.running⟩

theorem inBuild_scratch (s : State) (nodes : List Node) (q : List PqEntry) :
    s.inBuild nodes q s.scratch = { s with node := nodes, pq := q } := rfl

@[simp] theorem inBuild_res0 (s : State) (nodes : List Node) (q : List PqEntry) (r : Scratch) :
    (s.inBuild nodes q r).res0 = r.res0 := rfl

@[simp] theorem andThen_next (t : State) (f : State → Host.Outcome State Fault Refusal) : andThen (.next t) f = f t := rfl

section Rounds

/-! ### A round of the host program -/

variable (s : State) {nodes : List Node} {q : List PqEntry} (r : Scratch)

/-- Both commands that allocate report the index of the new node in RES0 (R153, R155). -/
theorem next_allocate_inBuild (n : Node) :
    ∃ r' : Scratch, r'.res0 = BitVec.ofNat 32 nodes.length ∧
      Host.Outcome.next ((s.inBuild nodes q r).allocate n).complete =
        (.next (s.inBuild (nodes ++ [n]) q r') : Host.Outcome State Fault Refusal) :=
  ⟨{ r with res0 := BitVec.ofNat 32 nodes.length, done := true, running := none }, rfl, rfl⟩

/-- The host writes ARG0, then ND_LEAF allocates the leaf of a pair. -/
theorem exec_ndLeaf_inBuild {x : Byte} {c : Word} (hc : c ≠ 0) (hfresh : hasLeaf nodes x = false) :
    ∃ r' : Scratch, r'.res0 = BitVec.ofNat 32 nodes.length ∧
      exec (.ndLeaf x) { s.inBuild nodes q r with arg0 := c } =
        .next (s.inBuild (nodes ++ [.leaf x c.toNat]) q r') := by
  obtain ⟨r', hres, hnext⟩ := next_allocate_inBuild s (q := q) { r with arg0 := c } (.leaf x c.toNat)
  exact ⟨r', hres, (exec_ndLeaf_of_fresh hc hfresh).trans hnext⟩

/-- ND_JOIN allocates the join of two parentless nodes. -/
theorem exec_ndJoin_inBuild {a b : Nat} (ha : a < nodes.length) (hb : b < nodes.length) (hne : a ≠ b)
    (hpa : hasParent nodes a = false) (hpb : hasParent nodes b = false) :
    ∃ r' : Scratch, r'.res0 = BitVec.ofNat 32 nodes.length ∧
      exec (.ndJoin a b) (s.inBuild nodes q r) = .next (s.inBuild (nodes ++ [joinNode nodes a b]) q r') := by
  obtain ⟨r', hres, hnext⟩ := next_allocate_inBuild s (q := q) r (joinNode nodes a b)
  exact ⟨r', hres, (exec_ndJoin_of_parentless ha hb hne hpa hpb).trans hnext⟩

/-- PQ_ENQ of the index that an allocation reported queues the new node: the index and the queue's length are in range, as they
are in the forest that the round makes. -/
theorem exec_pqEnq_inBuild {n : Node} {w : Nat} (hnext : ForestWf (nodes ++ [n]) (pqInsert q ⟨w, nodes.length⟩))
    (hres : r.res0 = BitVec.ofNat 32 nodes.length) :
    ∃ r', exec (.pqEnq r.res0.toNat) (s.inBuild (nodes ++ [n]) q r) =
      .next (s.inBuild (nodes ++ [n]) (pqInsert q ⟨w, nodes.length⟩) r') := by
  have hnodes := length_le_nodeCap hnext.store
  have hqueue := hnext.length_queue_le
  rw [length_pqInsert] at hqueue
  simp only [List.length_append, List.length_singleton, Config.nodeCap] at hnodes hqueue
  have hroom : q.length ≠ Config.pqCap := by
    simp only [Config.pqCap]
    omega
  have halloc : nodes.length < (nodes ++ [n]).length := by simp
  have hweight : weightAt (nodes ++ [n]) nodes.length = w := (hnext.entry _ (mem_pqInsert.2 (.inl rfl))).2
  have henq := exec_of_commandBody_ok
    ((commandBody_pqEnq_of_allocated (s := s.inBuild (nodes ++ [n]) q r) halloc).trans (if_neg hroom))
  rw [hres, toNat_ofNat_of_lt (by omega), ← hweight]
  exact ⟨{ r with
      res0 := BitVec.ofNat 32 (pqInsert q ⟨weightAt (nodes ++ [n]) nodes.length, nodes.length⟩).length
      done := true, running := none }, henq⟩

/-- PQ_DEQ takes the head and reports its index, which fits RES0. -/
theorem exec_pqDeq_inBuild {e : PqEntry} (h : ForestWf nodes (e :: q)) :
    ∃ r' : Scratch, r'.res0.toNat = e.idx ∧ exec .pqDeq (s.inBuild nodes (e :: q) r) = .next (s.inBuild nodes q r') := by
  have hcap := length_le_nodeCap h.store
  have hlt := (h.entry e List.mem_cons_self).1
  simp only [Config.nodeCap] at hcap
  exact ⟨{ r with
      res0 := BitVec.ofNat 32 e.idx, res1 := BitVec.ofNat 32 e.weight, res2 := BitVec.ofNat 32 (e.weight / 2 ^ 32)
      done := true, running := none },
    toNat_ofNat_of_lt (by omega), exec_of_commandBody_ok (commandBody_pqDeq_cons rfl)⟩

/-- A dequeue leaves a forest. -/
theorem ForestWf.tail {e : PqEntry} (h : ForestWf nodes (e :: q)) : ForestWf nodes q :=
  ⟨h.store, h.sorted.of_cons, fun x hx => h.entry x (List.mem_cons_of_mem e hx),
    fun x hx => h.root x (List.mem_cons_of_mem e hx), h.distinct.of_cons⟩

/-- What a well-formed table asks of its first pair, and what it leaves to the others (R39). -/
theorem tableWf_cons {x : Byte} {c : Word} {ft : FreqTable} :
    tableWf ((x, c) :: ft) ↔ x ∉ ft.map Prod.fst ∧ c ≠ 0 ∧ tableWf ft := by
  simp only [tableWf, List.map_cons, List.nodup_cons, List.mem_cons, not_or, ne_comm (a := c)]
  exact ⟨fun ⟨⟨hx, hnodup⟩, hc, h0⟩ => ⟨hx, hc, hnodup, h0⟩, fun ⟨hx, hc, hnodup, h0⟩ => ⟨⟨hx, hnodup⟩, hc, h0⟩⟩

/-- The seeding of the host program is that of TB_BUILD: each pair is an ND_LEAF and a PQ_ENQ (R158). -/
theorem seedByPrimitives_inBuild {ft : FreqTable} (hft : tableWf ft) (hfresh : ∀ x ∈ ft.map Prod.fst, hasLeaf nodes x = false)
    (h : ForestWf nodes q) :
    ∃ r', seedByPrimitives ft (s.inBuild nodes q r) =
      .next (s.inBuild (seedLeaves ft nodes q).1 (seedLeaves ft nodes q).2 r') := by
  induction ft generalizing nodes q r with
  | nil => exact ⟨r, rfl⟩
  | cons p ft ih =>
    obtain ⟨x, c⟩ := p
    obtain ⟨hx, hc, hft⟩ := tableWf_cons.1 hft
    obtain ⟨hfreshx, hfresh⟩ := List.forall_mem_cons.1 hfresh
    have hnext : ForestWf (nodes ++ [.leaf x c.toNat]) (pqInsert q ⟨c.toNat, nodes.length⟩) :=
      h.grow (fits_leaf hc hfreshx) rfl fun _ _ => rfl
    have hfreshNext : ∀ y ∈ ft.map Prod.fst, hasLeaf (nodes ++ [.leaf x c.toNat]) y = false := by
      intro y hy
      have hxy : x ≠ y := fun hxy => hx (hxy ▸ hy)
      simp [hfresh y hy, Node.isLeafOf, hxy]
    obtain ⟨rl, hres, hleaf⟩ := exec_ndLeaf_inBuild s (q := q) r hc hfreshx
    obtain ⟨rq, henq⟩ := exec_pqEnq_inBuild s rl hnext hres
    rw [seedByPrimitives, hleaf, andThen_next, inBuild_res0, henq]
    exact ih rq hft hfreshNext hnext

/-- The merging of the host program is that of TB_BUILD: two PQ_DEQ, an ND_JOIN and a PQ_ENQ for each merge (R158). -/
theorem mergeByPrimitives_inBuild (n : Nat) (h : ForestWf nodes q) (hlen : q.length = n + 1) :
    ∃ r', mergeByPrimitives n (s.inBuild nodes q r) =
      .next (s.inBuild (mergeQueue n nodes q).1 (mergeQueue n nodes q).2 r') := by
  induction n generalizing nodes q r with
  | zero => exact ⟨r, rfl⟩
  | succ n ih =>
    obtain ⟨e, f, q, rfl⟩ : ∃ e f q', q = e :: f :: q' := by
      rcases q with _ | ⟨e, _ | ⟨f, q⟩⟩
      · simp at hlen
      · simp at hlen
      · exact ⟨e, f, q, rfl⟩
    have he := List.mem_cons_self (a := e) (l := f :: q)
    have hf := List.mem_cons_of_mem e (List.mem_cons_self (a := f) (l := q))
    have hne : e.idx ≠ f.idx := fun hef => (List.nodup_cons.1 h.distinct).1 (by simp [hef])
    have hnext : ForestWf (nodes ++ [joinNode nodes e.idx f.idx]) (pqInsert q ⟨e.weight + f.weight, nodes.length⟩) :=
      forestWf_mergeQueue 1 h
    obtain ⟨ra, hra, hdeqa⟩ := exec_pqDeq_inBuild s r h
    obtain ⟨rb, hrb, hdeqb⟩ := exec_pqDeq_inBuild s ra h.tail
    obtain ⟨rj, hrj, hjoin⟩ := exec_ndJoin_inBuild s (q := q) rb (h.entry e he).1 (h.entry f hf).1 hne (h.root e he) (h.root f hf)
    obtain ⟨rq, henq⟩ := exec_pqEnq_inBuild s rj hnext hrj
    rw [mergeByPrimitives, hdeqa, andThen_next, hdeqb, andThen_next, inBuild_res0, inBuild_res0, hra, hrb, hjoin,
      andThen_next, inBuild_res0, henq]
    refine ih rq hnext ?_
    rw [length_pqInsert]
    simpa using hlen

end Rounds

/-! ### The command -/

/-- TB_BUILD dequeues the root of the tree it made (R157). -/
theorem exec_tbBuild_of_ne_nil {s : State} {e : PqEntry} {q : List PqEntry} (hft : s.ft ≠ []) (hq : (buildTree s.ft).2 = e :: q) :
    exec .tbBuild s = .next { s with
      node := (buildTree s.ft).1, pq := q, root := e.idx, treeValid := true, ctValid := false
      done := true, running := none } := by
  refine exec_of_commandBody_ok (u := { s with
    node := (buildTree s.ft).1, pq := q, root := e.idx, treeValid := true, ctValid := false }) ?_
  rw [commandBody, tbBuildBody, if_neg (by simpa using hft)]
  simp only [hq, pqRemoveHead]

/-- The host program makes the tree of TB_BUILD, dequeues its root and names it. -/
theorem buildByPrimitives_eq {s : State} {ft : FreqTable} {e : PqEntry} {n : Nat} (hft : tableWf ft) (hlen : ft.length = n + 1)
    (hq : (buildTree ft).2 = [e]) :
    ∃ r, buildByPrimitives ft { s with node := [], pq := [] } =
      .next { s.inBuild (buildTree ft).1 [] r with
        root := e.idx, treeValid := true, ctValid := false, done := true, running := none } := by
  have hforest := forestWf_buildTree hft
  have hseeded : ForestWf (seedLeaves ft [] []).1 (seedLeaves ft [] []).2 :=
    forestWf_seedLeaves hft (fun _ _ => rfl) forestWf_nil
  obtain ⟨rs, hseed⟩ := seedByPrimitives_inBuild s s.scratch hft (fun _ _ => rfl) forestWf_nil
  obtain ⟨rm, hmerge⟩ := mergeByPrimitives_inBuild s rs n hseeded (by simp [length_seedLeaves, hlen])
  rw [← buildTree_eq_mergeQueue hlen, hq] at hmerge
  rw [hq] at hforest
  obtain ⟨rd, hres, hdeq⟩ := exec_pqDeq_inBuild s rm hforest
  have hset := exec_trSet_of_parentless (s := s.inBuild (buildTree ft).1 [] rd)
    (hforest.entry e List.mem_cons_self).1 (hforest.root e List.mem_cons_self)
  refine ⟨rd, ?_⟩
  rw [← inBuild_scratch, buildByPrimitives, hseed, andThen_next, hlen, Nat.add_sub_cancel, hmerge, andThen_next, hdeq,
    andThen_next, inBuild_res0, hres, hset]

/-- Settles O29: the host program follows TB_BUILD round by round, and what it writes beside is scratch. -/
theorem tbBuildEqualsPrimitives : Obligations.TbBuildEqualsPrimitives := by
  intro s hft hne
  obtain ⟨n, hlen⟩ := Nat.exists_eq_add_one.2 (List.length_pos_iff.2 hne)
  obtain ⟨e, hq⟩ := exists_queue_buildTree hne
  obtain ⟨r, hbuild⟩ := buildByPrimitives_eq (s := s) hft hlen hq
  exact ⟨_, hbuild, exec_tbBuild_of_ne_nil hne hq⟩

end Sys2Proof.Machine
end

section
/-! PROOFS. The tree that TB_BUILD makes of any table (R152, R161): the leaves stand first and in table order, each merge turns two
roots into one, and the queue holds exactly the roots, with the weights of the leaves below them. No condition on the table is
needed: the indices are distinct whatever the symbols and counts are. -/

namespace Sys2Proof.Machine

/-! ### What a merge keeps, the loop keeps -/

/-- The induction over the loop of TB_BUILD: what every merge keeps holds when it ends (R157). -/
theorem mergeQueue_keeps {P : List Node → List PqEntry → Prop}
    (hmerge : ∀ nodes e f q, P nodes (e :: f :: q) →
      P (nodes ++ [joinNode nodes e.idx f.idx]) (pqInsert q ⟨e.weight + f.weight, nodes.length⟩))
    (n : Nat) {nodes : List Node} {q : List PqEntry} (h : P nodes q) : P (mergeQueue n nodes q).1 (mergeQueue n nodes q).2 := by
  induction n generalizing nodes q with
  | zero => exact h
  | succ n ih =>
    rcases q with _ | ⟨e, _ | ⟨f, q⟩⟩
    · exact h
    · exact h
    · exact ih (hmerge nodes e f q h)

/-- The leaf of a pair (R157). -/
def leafOf (p : Byte × Word) : Node := .leaf p.1 p.2.toNat

/-- The sum of the weights queued. -/
def weightSum (q : List PqEntry) : Nat := (q.map PqEntry.weight).sum

theorem weightSum_pqInsert (q : List PqEntry) (e : PqEntry) : weightSum (pqInsert q e) = e.weight + weightSum q :=
  ((pqInsert_perm q e).map _).sum_nat

/-! ### The leaves -/

/-- Seeding allocates the leaves in table order (R157). -/
theorem nodes_seedLeaves (ft : FreqTable) (nodes : List Node) (q : List PqEntry) :
    (seedLeaves ft nodes q).1 = nodes ++ ft.map leafOf := by
  induction ft generalizing nodes q with
  | nil => exact (List.append_nil nodes).symm
  | cons p ft ih =>
    obtain ⟨x, c⟩ := p
    rw [seedLeaves, ih, List.append_assoc]
    rfl

/-- Seeding queues the counts (R157). -/
theorem weightSum_seedLeaves (ft : FreqTable) (nodes : List Node) (q : List PqEntry) :
    weightSum (seedLeaves ft nodes q).2 = weightSum q + countSum ft := by
  induction ft generalizing nodes q with
  | nil => rfl
  | cons p ft ih =>
    obtain ⟨x, c⟩ := p
    rw [seedLeaves, ih, weightSum_pqInsert, countSum_cons, Nat.add_comm c.toNat, Nat.add_assoc]

theorem filterMap_symbol_leaves (ft : FreqTable) : (ft.map leafOf).filterMap Node.symbol? = ft.map Prod.fst := by
  rw [List.filterMap_map]
  exact congrFun List.filterMap_eq_map ft

theorem symbol_joinNode (nodes : List Node) (a b : Nat) : (joinNode nodes a b).symbol? = none := by
  simp only [joinNode]
  split <;> rfl

/-- The nodes of a table's tree are its leaves, then joins only. -/
theorem exists_joins_buildTree (ft : FreqTable) :
    ∃ joins, (buildTree ft).1 = ft.map leafOf ++ joins ∧ joins.filterMap Node.symbol? = [] := by
  refine mergeQueue_keeps (P := fun nodes _ => ∃ joins, nodes = ft.map leafOf ++ joins ∧ joins.filterMap Node.symbol? = [])
    ?_ _ ⟨[], by rw [nodes_seedLeaves]; simp, rfl⟩
  rintro _ e f q ⟨joins, rfl, hjoins⟩
  refine ⟨joins ++ [joinNode (ft.map leafOf ++ joins) e.idx f.idx], List.append_assoc .., ?_⟩
  rw [List.filterMap_append, hjoins, List.filterMap_cons_none (symbol_joinNode ..)]
  rfl

/-- A merge takes one entry from the queue for the node it allocates (R152). -/
theorem length_nodes_buildTree (ft : FreqTable) : (buildTree ft).1.length + (buildTree ft).2.length = 2 * ft.length := by
  refine mergeQueue_keeps (P := fun nodes q => nodes.length + q.length = 2 * ft.length) ?_ _ ?_
  · intro nodes e f q h
    rw [List.length_append, length_pqInsert, ← h]
    simp only [List.length_cons, List.length_nil]
    omega
  · rw [nodes_seedLeaves, length_seedLeaves]
    simp only [List.nil_append, List.length_map, List.length_nil]
    omega

/-- A merge queues the sum of the weights that it dequeues (R161). -/
theorem weightSum_buildTree (ft : FreqTable) : weightSum (buildTree ft).2 = countSum ft := by
  refine mergeQueue_keeps (P := fun _ q => weightSum q = countSum ft) ?_ _ ?_
  · intro nodes e f q h
    rw [weightSum_pqInsert, ← h, Nat.add_assoc]
    rfl
  · rw [weightSum_seedLeaves]
    exact Nat.zero_add _

/-! ### The parents -/

/-- The store and the queue while TB_BUILD runs, on any table: a node has one parent, or else one place in the queue; an entry has
the weight of its node; the newest node is queued. -/
structure RootsQueued (nodes : List Node) (q : List PqEntry) : Prop where
  parents : ∀ i, nodes.countP (Node.isParentOf i) + (q.map PqEntry.idx).count i = if i < nodes.length then 1 else 0
  entry : ∀ e ∈ q, weightAt nodes e.idx = e.weight
  newest : nodes ≠ [] → ∃ e ∈ q, e.idx + 1 = nodes.length

/-- A queued index is that of a node. -/
theorem RootsQueued.idx_lt {nodes : List Node} {q : List PqEntry} (h : RootsQueued nodes q) {e : PqEntry} (he : e ∈ q) :
    e.idx < nodes.length := by
  have hcount : 0 < (q.map PqEntry.idx).count e.idx := List.count_pos_iff.2 (List.mem_map_of_mem he)
  have hparents := h.parents e.idx
  by_contra hge
  rw [if_neg hge] at hparents
  omega

/-- A new node whose children leave the queue takes their place in it. -/
theorem RootsQueued.grow {nodes : List Node} {q q' : List PqEntry} {n : Node} {w : Nat} (h : RootsQueued nodes q)
    (hq : ∀ e ∈ q', e ∈ q) (hw : w = n.weight)
    (hn : ∀ i, (if n.isParentOf i = true then 1 else 0) + (q'.map PqEntry.idx).count i = (q.map PqEntry.idx).count i) :
    RootsQueued (nodes ++ [n]) (pqInsert q' ⟨w, nodes.length⟩) where
  parents i := by
    have hparents := h.parents i
    have hchildren := hn i
    rw [List.countP_append, List.countP_singleton, ((pqInsert_perm _ _).map _).count_eq, List.map_cons, List.count_cons,
      List.length_append, List.length_singleton]
    simp only [beq_iff_eq]
    split_ifs at hparents hchildren ⊢ <;> omega
  entry e he := by
    rcases mem_pqInsert.1 he with rfl | he
    · rw [weightAt_append_length, hw]
    · rw [weightAt_append (h.idx_lt (hq e he)), h.entry e (hq e he)]
  newest _ := ⟨_, mem_pqInsert.2 (.inl rfl), by simp⟩

theorem rootsQueued_nil : RootsQueued [] [] := ⟨fun _ => rfl, nofun, fun h => absurd rfl h⟩

/-- A leaf has no children, so seeding dequeues nothing. -/
theorem rootsQueued_seedLeaves {ft : FreqTable} {nodes : List Node} {q : List PqEntry} (h : RootsQueued nodes q) :
    RootsQueued (seedLeaves ft nodes q).1 (seedLeaves ft nodes q).2 := by
  induction ft generalizing nodes q with
  | nil => exact h
  | cons p ft ih =>
    obtain ⟨x, c⟩ := p
    exact ih (h.grow (fun _ he => he) rfl fun i => Nat.zero_add _)

/-- The children of a join are the two nodes joined. -/
theorem isParentOf_joinNode_iff {nodes : List Node} {a b i : Nat} :
    (joinNode nodes a b).isParentOf i = true ↔ a = i ∨ b = i := by
  simp only [joinNode]
  split <;> simp [Node.isParentOf, or_comm]

/-- The two entries that a merge dequeues are of different nodes, the children of the join. -/
theorem rootsQueued_buildTree (ft : FreqTable) : RootsQueued (buildTree ft).1 (buildTree ft).2 := by
  refine mergeQueue_keeps (P := RootsQueued) (fun nodes e f q h => ?_) _ (rootsQueued_seedLeaves rootsQueued_nil)
  have he := h.entry e List.mem_cons_self
  have hf := h.entry f (List.mem_cons_of_mem e List.mem_cons_self)
  have hne : e.idx ≠ f.idx := by
    intro hef
    have hparents := h.parents e.idx
    rw [List.map_cons, List.map_cons, ← hef, List.count_cons_self, List.count_cons_self] at hparents
    split at hparents <;> omega
  refine h.grow (fun x hx => by simp [hx]) (by rw [weight_joinNode, he, hf]) fun i => ?_
  simp only [isParentOf_joinNode_iff, List.map_cons, List.count_cons, beq_iff_eq]
  split_ifs <;> omega

/-! ### The tree -/

/-- When TB_BUILD ends its merges the queue holds the newest node, with the sum of the counts (R152, R161). -/
theorem queue_buildTree {ft : FreqTable} (hft : ft ≠ []) : (buildTree ft).2 = [⟨countSum ft, 2 * ft.length - 2⟩] := by
  obtain ⟨e, hq⟩ := exists_queue_buildTree hft
  have hsize := length_nodes_buildTree ft
  have hpos := List.length_pos_iff.2 hft
  rw [hq, List.length_singleton] at hsize
  obtain ⟨x, hx, hidx⟩ := (rootsQueued_buildTree ft).newest (List.length_pos_iff.1 (by omega))
  rw [hq] at hx
  obtain rfl := List.mem_singleton.1 hx
  have hweight : x.weight = countSum ft := by
    rw [← weightSum_buildTree, hq]
    rfl
  rw [hq, ← hweight, show 2 * ft.length - 2 = x.idx by omega]

/-- TB_BUILD makes one node less than twice the pairs (R152). -/
theorem length_buildTree {ft : FreqTable} (hft : ft ≠ []) : (buildTree ft).1.length = 2 * ft.length - 1 := by
  have hsize := length_nodes_buildTree ft
  rw [queue_buildTree hft, List.length_singleton] at hsize
  omega

/-- The first nodes are the leaves, in table order (R152). -/
theorem take_buildTree (ft : FreqTable) : (buildTree ft).1.take ft.length = ft.map leafOf := by
  obtain ⟨joins, hnodes, -⟩ := exists_joins_buildTree ft
  rw [hnodes]
  exact List.take_left' (List.length_map _)

/-- Every symbol of the table is that of one leaf, and there are no other leaves (R161). -/
theorem symbols_buildTree (ft : FreqTable) : (buildTree ft).1.filterMap Node.symbol? = ft.map Prod.fst := by
  obtain ⟨joins, hnodes, hjoins⟩ := exists_joins_buildTree ft
  rw [hnodes, List.filterMap_append, hjoins, filterMap_symbol_leaves, List.append_nil]

/-- Every node but the root has exactly one parent (R161): only the root is queued. -/
theorem countP_parents_buildTree {ft : FreqTable} (hft : ft ≠ []) (i : Nat) :
    (buildTree ft).1.countP (Node.isParentOf i) = if i < 2 * ft.length - 2 then 1 else 0 := by
  have hparents := (rootsQueued_buildTree ft).parents i
  have hpos := List.length_pos_iff.2 hft
  rw [queue_buildTree hft, List.map_singleton, List.count_singleton, length_buildTree hft] at hparents
  simp only [beq_iff_eq] at hparents
  split_ifs at hparents ⊢ <;> omega

/-- Settles O28: the queue that is left tells the root and its weight, and that every other node has its one parent. -/
theorem tbBuildTreeShape : Obligations.TbBuildTreeShape := by
  refine ⟨fun ft => (buildTree ft).1, fun s => ⟨fun hft => ?_, fun hft => ?_⟩⟩
  · exact exec_of_commandBody_error (e := missingInputError) (if_pos (by simp [hft]))
  · have hq := queue_buildTree hft
    exact ⟨exec_tbBuild_of_ne_nil hft hq, length_buildTree hft, take_buildTree s.ft, symbols_buildTree s.ft,
      fun i hi => (countP_parents_buildTree hft i).trans (if_pos hi),
      (countP_parents_buildTree hft _).trans (if_neg (Nat.lt_irrefl _)),
      (rootsQueued_buildTree s.ft).entry _ (hq ▸ List.mem_cons_self)⟩

end Sys2Proof.Machine
end

section
/-! PROOFS. CG_GEN gives each symbol its path from the root (R171, R172): in a store that meets R42 no two paths from a node lead to
the same node, so the walk assigns every leaf once, and no path to a leaf goes through another leaf (R173). -/

namespace Sys2Proof.Machine

/-! ### Paths as indices -/

/-- The child of a node on a bit: 0 the left one, 1 the right one. -/
def Node.child? (b : Bool) : Node → Option Nat
  | .leaf _ _ => none
  | .internal _ l r => some (if b then r else l)

/-- The index of the node that a path from node `i` leads to; `followPath` gives the node itself. -/
def followIndex (nodes : List Node) (i : Nat) (path : Bits) : Option Nat :=
  path.foldlM (fun j b => nodes[j]?.bind (Node.child? b)) i

theorem followIndex_append (nodes : List Node) (i : Nat) (c d : Bits) :
    followIndex nodes i (c ++ d) = (followIndex nodes i c).bind (followIndex nodes · d) :=
  List.foldlM_append

/-- A path with one more bit at its end leads to the child, on that bit, of the node it led to without. -/
theorem followIndex_concat_eq_some {nodes : List Node} {i j : Nat} {c : Bits} {b : Bool} :
    followIndex nodes i (c ++ [b]) = some j ↔
      ∃ p n, followIndex nodes i c = some p ∧ nodes[p]? = some n ∧ n.child? b = some j := by
  simp [followIndex, Option.bind_eq_some_iff]

theorem followPath_nil (nodes : List Node) (i : Nat) : followPath nodes i [] = nodes[i]? := rfl

theorem followPath_leaf_cons {nodes : List Node} {i w : Nat} {x : Byte} (hi : nodes[i]? = some (.leaf x w)) (b : Bool)
    (bs : Bits) : followPath nodes i (b :: bs) = none := by
  simp [followPath, hi]

theorem followPath_internal_cons {nodes : List Node} {i w l r : Nat} (hi : nodes[i]? = some (.internal w l r)) (b : Bool)
    (bs : Bits) : followPath nodes i (b :: bs) = followPath nodes (if b then r else l) bs := by
  simp [followPath, hi]

theorem followPath_none {nodes : List Node} {i : Nat} (hi : nodes[i]? = none) (bs : Bits) : followPath nodes i bs = none := by
  cases bs <;> simp [followPath, hi]

theorem followPath_eq_bind (nodes : List Node) (bs : Bits) :
    ∀ i, followPath nodes i bs = (followIndex nodes i bs).bind (nodes[·]?) := by
  induction bs with
  | nil => exact fun _ => rfl
  | cons b bs ih =>
    intro i
    rcases hi : nodes[i]? with _ | ⟨y, w⟩ | ⟨w, l, r⟩
    · simp [followPath_none hi, followIndex, hi]
    · simp [followPath_leaf_cons hi, followIndex, hi, Node.child?]
    · rw [followPath_internal_cons hi, ih]
      simp [followIndex, hi, Node.child?]

theorem followPath_eq_some {nodes : List Node} {i : Nat} {c : Bits} {n : Node} :
    followPath nodes i c = some n ↔ ∃ j, followIndex nodes i c = some j ∧ nodes[j]? = some n := by
  rw [followPath_eq_bind, Option.bind_eq_some_iff]

theorem followPath_append (nodes : List Node) (i : Nat) (c d : Bits) :
    followPath nodes i (c ++ d) = (followIndex nodes i c).bind (followPath nodes · d) := by
  simp only [followPath_eq_bind, followIndex_append, Option.bind_assoc]

/-- No path goes on below a leaf. -/
theorem eq_nil_of_followPath_append {nodes : List Node} {i w : Nat} {c d : Bits} {x : Byte} {n : Node}
    (hleaf : followPath nodes i c = some (.leaf x w)) (happ : followPath nodes i (c ++ d) = some n) : d = [] := by
  obtain ⟨j, hj, hn⟩ := followPath_eq_some.1 hleaf
  rw [followPath_append, hj, Option.bind_some] at happ
  cases d with
  | nil => rfl
  | cons b d => simp [followPath_leaf_cons hn] at happ

/-! ### One path to each node -/

theorem Node.child?_eq_some {n : Node} {b : Bool} {j : Nat} :
    n.child? b = some j ↔ ∃ w l r, n = .internal w l r ∧ (if b then r else l) = j := by
  cases n <;> simp [Node.child?]

theorem isParentOf_of_child? {n : Node} {b : Bool} {j : Nat} (h : n.child? b = some j) : n.isParentOf j = true := by
  obtain ⟨w, l, r, rfl, rfl⟩ := Node.child?_eq_some.1 h
  cases b <;> simp [Node.isParentOf]

theorem child?_lt {nodes : List Node} (h : storeWf nodes) {i j : Nat} {n : Node} {b : Bool} (hi : nodes[i]? = some n)
    (hj : n.child? b = some j) : j < i := by
  obtain ⟨w, l, r, rfl, rfl⟩ := Node.child?_eq_some.1 hj
  obtain ⟨hl, hr⟩ := children_lt_of_storeWf h hi
  split
  · exact hr
  · exact hl

/-- The two children of a node are different (R42). -/
theorem children_ne {nodes : List Node} (h : storeWf nodes) {i w l r : Nat} (hi : nodes[i]? = some (.internal w l r)) :
    l ≠ r := by
  obtain ⟨hok, -, -⟩ := h
  have hnode := hok i (List.getElem?_eq_some_iff.1 hi).1
  simp only [hi, Option.all_some, Node.okAt, Bool.and_eq_true, bne_iff_ne] at hnode
  obtain ⟨⟨⟨hne, -⟩, -⟩, -⟩ := hnode
  exact hne

/-- Each step of a path lowers the index (R42). -/
theorem followIndex_add_length_le {nodes : List Node} (h : storeWf nodes) {i : Nat} {c : Bits} :
    ∀ {j}, followIndex nodes i c = some j → j + c.length ≤ i := by
  induction c using List.reverseRecOn with
  | nil => exact fun hj => (Option.some.inj hj).ge
  | append_singleton c b ih =>
    intro j hj
    obtain ⟨p, n, hp, hn, hchild⟩ := followIndex_concat_eq_some.1 hj
    have hlen := ih hp
    have hlt := child?_lt h hn hchild
    simp
    omega

/-- Where a predicate holds of one element at most, it holds at one index at most. -/
theorem index_eq_of_countP_le_one {α : Type} {l : List α} {p : α → Bool} (h : l.countP p ≤ 1) {i j : Nat} {a b : α}
    (hi : l[i]? = some a) (ha : p a = true) (hj : l[j]? = some b) (hb : p b = true) : i = j := by
  by_contra hne
  wlog hlt : i < j generalizing i j a b
  · exact this hj hb hi ha (Ne.symm hne) (by omega)
  have hleft : 0 < (l.take j).countP p :=
    List.countP_pos_iff.2 ⟨a, List.mem_of_getElem? (i := i) (by simp [hlt, hi]), ha⟩
  have hright : 0 < (l.drop j).countP p := List.countP_pos_iff.2 ⟨b, List.mem_of_getElem? (i := 0) (by simp [hj]), hb⟩
  rw [← List.take_append_drop j l, List.countP_append] at h
  omega

/-- A node is a child of one node at most, and on one bit (R42). -/
theorem parent_unique {nodes : List Node} (h : storeWf nodes) {i i' j : Nat} {n n' : Node} {b b' : Bool}
    (hi : nodes[i]? = some n) (hj : n.child? b = some j) (hi' : nodes[i']? = some n') (hj' : n'.child? b' = some j) :
    i = i' ∧ b = b' := by
  obtain ⟨-, hone, -⟩ := id h
  have hlen : j < nodes.length := (child?_lt h hi hj).trans (List.getElem?_eq_some_iff.1 hi).1
  obtain rfl := index_eq_of_countP_le_one (hone j hlen) hi (isParentOf_of_child? hj) hi' (isParentOf_of_child? hj')
  obtain rfl := Option.some.inj (hi.symm.trans hi')
  obtain ⟨w, l, r, rfl, rfl⟩ := Node.child?_eq_some.1 hj
  have hne := children_ne h hi
  refine ⟨rfl, ?_⟩
  cases b <;> cases b' <;> simp_all [Node.child?]

/-- Two paths to the same node are the same path: their last bits come from its one parent. -/
theorem followIndex_injective {nodes : List Node} (h : storeWf nodes) {i : Nat} {c : Bits} :
    ∀ {d j}, followIndex nodes i c = some j → followIndex nodes i d = some j → c = d := by
  induction c using List.reverseRecOn with
  | nil =>
    intro d j hc hd
    obtain rfl : i = j := Option.some.inj hc
    have := followIndex_add_length_le h hd
    exact (List.length_eq_zero_iff.1 (by omega)).symm
  | append_singleton c b ih =>
    intro d j hc hd
    cases d using List.reverseRecOn with
    | nil =>
      obtain rfl : i = j := Option.some.inj hd
      have := followIndex_add_length_le h hc
      simp at this
    | append_singleton d b' =>
      obtain ⟨p, n, hp, hn, hchild⟩ := followIndex_concat_eq_some.1 hc
      obtain ⟨p', n', hp', hn', hchild'⟩ := followIndex_concat_eq_some.1 hd
      obtain ⟨rfl, rfl⟩ := parent_unique h hn hchild hn' hchild'
      rw [ih hp hp']

/-- No two leaves hold the same symbol (R42). -/
theorem leaf_index_unique {nodes : List Node} (h : storeWf nodes) {i j w v : Nat} {x : Byte}
    (hi : nodes[i]? = some (.leaf x w)) (hj : nodes[j]? = some (.leaf x v)) : i = j := by
  obtain ⟨-, -, hsym⟩ := h
  have hcount := List.nodup_iff_count_le_one.1 hsym x
  rw [List.count_filterMap] at hcount
  exact index_eq_of_countP_le_one hcount hi (by simp [Node.symbol?]) hj (by simp [Node.symbol?])

/-- The paths from a node to the leaf of a symbol: there is one at most. -/
theorem leafPath_unique {nodes : List Node} (h : storeWf nodes) {i w v : Nat} {x : Byte} {c d : Bits}
    (hc : followPath nodes i c = some (.leaf x w)) (hd : followPath nodes i d = some (.leaf x v)) : c = d := by
  obtain ⟨j, hj, hleaf⟩ := followPath_eq_some.1 hc
  obtain ⟨j', hj', hleaf'⟩ := followPath_eq_some.1 hd
  obtain rfl := leaf_index_unique h hleaf hleaf'
  exact followIndex_injective h hj hj'

/-! ### What the walk assigns -/

/-- The walk below node `i` leaves the entry of a symbol alone when no path from `i` leads to a leaf of it. -/
theorem get_walkTree_of_no_leaf {nodes : List Node} {x : Byte} (n : Nat) :
    ∀ (i : Nat) (path : Bits) (ct : CodeTable), (∀ c w, followPath nodes i c ≠ some (.leaf x w)) →
      (walkTree nodes n i path ct).get x = ct.get x := by
  induction n with
  | zero => exact fun _ _ _ _ => rfl
  | succ n ih =>
    intro i path ct hno
    rcases hi : nodes[i]? with _ | ⟨y, w⟩ | ⟨w, l, r⟩
    · rw [walkTree_succ_none n path ct hi]
    · have hne : x ≠ y := fun hxy => hno [] w (hxy ▸ hi)
      rw [walkTree_succ_leaf n path ct hi, CodeTable.get_assign, if_neg hne]
    · have hchild (b : Bool) (c : Bits) (v : Nat) : followPath nodes (if b then r else l) c ≠ some (.leaf x v) :=
        followPath_internal_cons hi b c ▸ hno (b :: c) v
      rw [walkTree_succ_internal n path ct hi, ih r _ _ (hchild true), ih l _ _ (hchild false)]

/-- The walk below node `i` assigns to the symbol of a leaf the path to it (R171); the walk of the right side does not come to
a leaf of the left side again. -/
theorem get_walkTree_of_leaf {nodes : List Node} (h : storeWf nodes) {x : Byte} {v : Nat} (n : Nat) :
    ∀ (i : Nat) (path : Bits) (ct : CodeTable) (c : Bits), i < n → followPath nodes i c = some (.leaf x v) →
      (walkTree nodes n i path ct).get x = some (path ++ c) := by
  induction n with
  | zero => exact fun i _ _ _ hn => absurd hn (Nat.not_lt_zero i)
  | succ n ih =>
    intro i path ct c hn hleaf
    rcases hi : nodes[i]? with _ | ⟨y, w⟩ | ⟨w, l, r⟩
    · simp [followPath_none hi] at hleaf
    · obtain rfl : c = [] := eq_nil_of_followPath_append (c := []) hi hleaf
      obtain ⟨rfl, rfl⟩ : y = x ∧ w = v := by simpa [followPath_nil, hi] using hleaf
      rw [walkTree_succ_leaf n path ct hi, CodeTable.get_assign, if_pos rfl, List.append_nil]
    · obtain ⟨hl, hr⟩ := children_lt_of_storeWf h hi
      rw [walkTree_succ_internal n path ct hi]
      match c with
      | [] => simp [followPath_nil, hi] at hleaf
      | true :: c =>
        rw [followPath_internal_cons hi] at hleaf
        rw [ih r _ _ c (by omega) hleaf, List.append_assoc, List.singleton_append]
      | false :: c =>
        have hright (d : Bits) (u : Nat) : followPath nodes r d ≠ some (.leaf x u) := fun hd =>
          absurd (leafPath_unique h hleaf ((followPath_internal_cons hi true d).trans hd)) (by simp)
        rw [followPath_internal_cons hi] at hleaf
        rw [get_walkTree_of_no_leaf n r _ _ hright, ih l _ _ c (by omega) hleaf, List.append_assoc, List.singleton_append]

/-- The codes of a tree whose root is internal are the paths from the root to its leaves (R171). -/
theorem get_genCodes_internal {nodes : List Node} (h : storeWf nodes) {root w l r : Nat}
    (hroot : nodes[root]? = some (.internal w l r)) {x : Byte} {c : Bits} :
    (genCodes nodes root).get x = some c ↔ ∃ v, followPath nodes root c = some (.leaf x v) := by
  have hlen := (List.getElem?_eq_some_iff.1 hroot).1
  rw [genCodes_internal hroot]
  constructor
  · intro hc
    by_cases hex : ∃ d v, followPath nodes root d = some (.leaf x v)
    · obtain ⟨d, v, hd⟩ := hex
      rw [get_walkTree_of_leaf h _ _ _ _ d hlen hd] at hc
      obtain rfl : d = c := Option.some.inj hc
      exact ⟨v, hd⟩
    · rw [get_walkTree_of_no_leaf _ _ _ _ fun d v hd => hex ⟨d, v, hd⟩, CodeTable.get_empty] at hc
      contradiction
  · rintro ⟨v, hv⟩
    exact get_walkTree_of_leaf h _ _ _ _ c hlen hv

/-- The code of a root that is a leaf is 0 (R172). -/
theorem get_genCodes_leaf {nodes : List Node} {root w : Nat} {x : Byte} (hroot : nodes[root]? = some (.leaf x w)) (y : Byte) :
    (genCodes nodes root).get y = if y = x then some [false] else none := by
  rw [genCodes_leaf hroot, CodeTable.get_assign, CodeTable.get_empty]

/-! ### Codes that are no prefixes of one another -/

/-- A code that is a prefix of another ends in the same leaf, so it is the code of the same symbol (R173). -/
theorem symbol_eq_of_genCodes_prefix {nodes : List Node} (h : storeWf nodes) {root : Nat} {x y : Byte} {c d : Bits}
    (hc : (genCodes nodes root).get x = some c) (hd : (genCodes nodes root).get y = some d) (hprefix : c <+: d) : x = y := by
  rcases hroot : nodes[root]? with _ | ⟨z, w⟩ | ⟨w, l, r⟩
  · simp [genCodes, hroot] at hc
  · rw [get_genCodes_leaf hroot, Option.ite_none_right_eq_some] at hc hd
    exact hc.1.trans hd.1.symm
  · obtain ⟨v, hx⟩ := (get_genCodes_internal h hroot).1 hc
    obtain ⟨u, hy⟩ := (get_genCodes_internal h hroot).1 hd
    obtain ⟨e, rfl⟩ := hprefix
    obtain rfl := eq_nil_of_followPath_append hx hy
    rw [List.append_nil, hx] at hy
    cases hy
    rfl

theorem CodeTable.getElem_eq_get (ct : CodeTable) {i : Nat} (hi : i < ct.toList.length) :
    ct.toList[i] = ct.get (BitVec.ofNat 8 i) := by
  have hlt : i < 256 := by simpa using hi
  simp [CodeTable.get, Nat.mod_eq_of_lt hlt]

/-- Codes that are non-empty and no prefix of the code of another symbol are as R173 and R174 ask. -/
theorem codesWf_of_get {ct : CodeTable} (hne : ∀ x c, ct.get x = some c → c ≠ [])
    (hprefix : ∀ x y c d, ct.get x = some c → ct.get y = some d → c <+: d → x = y) : codesWf ct := by
  refine ⟨fun c hc => ?_, List.pairwise_filterMap.2 (List.pairwise_iff_getElem.2 fun i j hi hj hlt c hc d hd => ?_)⟩
  · obtain ⟨o, ho, hoc⟩ := List.mem_filterMap.1 hc
    obtain ⟨i, hi, rfl⟩ := List.getElem_of_mem ho
    exact hne _ c ((ct.getElem_eq_get hi).symm.trans hoc)
  · have hx := (ct.getElem_eq_get hi).symm.trans hc
    have hy := (ct.getElem_eq_get hj).symm.trans hd
    have hxy : BitVec.ofNat 8 i ≠ BitVec.ofNat 8 j := by
      simp only [Vector.length_toList] at hi hj
      bv_omega
    exact ⟨fun hp => hxy (hprefix _ _ _ _ hx hy hp), fun hp => hxy (hprefix _ _ _ _ hy hx hp).symm⟩

theorem codesWf_genCodes {nodes : List Node} (h : storeWf nodes) (root : Nat) : codesWf (genCodes nodes root) :=
  codesWf_of_get (fun _ _ hc => List.ne_nil_of_length_pos (length_of_get_genCodes h hc).1)
    fun _ _ _ _ => symbol_eq_of_genCodes_prefix h

/-- With an active tree CG_GEN makes the tree's codes the code table. -/
theorem exec_cgGen_of_treeValid {s : State} (htree : s.treeValid = true) :
    exec .cgGen s = .next { s with ct := genCodes s.node s.root, ctValid := true, done := true, running := none } :=
  exec_of_commandBody_ok (u := { s with ct := genCodes s.node s.root, ctValid := true }) (if_pos htree)

/-- Settles O31: the codes are the paths to different leaves. -/
theorem cgGenCodesPrefixFree : Obligations.CgGenCodesPrefixFree := fun s htree hstore _ =>
  ⟨_, exec_cgGen_of_treeValid htree, rfl, codesWf_genCodes hstore s.root⟩

/-- Settles O30: the walk assigns to each leaf below the root the path to it, and nothing else. -/
theorem cgGenCodesArePaths : Obligations.CgGenCodesArePaths := by
  refine ⟨by decide, fun s => ⟨fun hnone => ?_, fun htree hstore _ => ⟨genCodes s.node s.root, ?_, ?_, ?_⟩⟩⟩
  · exact exec_of_commandBody_error (e := missingTreeError) (if_neg (by simp [hnone]))
  · exact exec_cgGen_of_treeValid htree
  · exact fun _ _ hroot => get_genCodes_leaf hroot
  · exact fun _ _ _ hroot _ _ => get_genCodes_internal hstore hroot

end Sys2Proof.Machine
end

section
/-! PROOFS. Bit-string assembly and the bit packer (R180 to R187): BS_ASM appends the codes of a text as long as each symbol has one
and it fits; the packed bytes, unpacked, are the packed bits and their padding. -/

namespace Sys2Proof.Machine

/-! ### BS_ASM -/

theorem encodeText_cons {ct : CodeTable} {x : Byte} {c : Bits} (hx : ct.get x = some c) (xs : List Byte) :
    encodeText ct (x :: xs) = c ++ encodeText ct xs := by
  simp [encodeText, codeOf, hx]

/-- BS_ASM passes over a text whose symbols have codes that fit, and appends those codes (R181). -/
theorem assembleBits_append {ct : CodeTable} {cap : Nat} {xs : List Byte} (ys : List Byte) {bits : Bits}
    (hcoded : allCoded ct xs) (hfit : bits.length + (encodeText ct xs).length ≤ cap) :
    assembleBits ct cap (xs ++ ys) bits = assembleBits ct cap ys (bits ++ encodeText ct xs) := by
  induction xs generalizing bits with
  | nil => simp [encodeText]
  | cons x xs ih =>
    obtain ⟨hx, hxs⟩ := List.forall_mem_cons.1 hcoded
    obtain ⟨c, hc⟩ := Option.isSome_iff_exists.1 hx
    rw [encodeText_cons hc, List.length_append] at hfit
    have hroom : ¬ bits.length + c.length > cap := by omega
    rw [List.cons_append, assembleBits, hc]
    simp only [if_neg hroom]
    rw [ih hxs (by rw [List.length_append]; omega), encodeText_cons hc, List.append_assoc]

theorem commandBody_bsAsm_of_not_ctValid {s : State} (hct : s.ctValid = false) :
    commandBody .bsAsm s = .error missingCodeTableError := by
  simp [commandBody, bsAsmBody, hct]

/-- With a code table and an input that fits IBUF, the assembly decides how BS_ASM ends (R181). -/
theorem commandBody_bsAsm_of_fits {s : State} (hct : s.ctValid = true) (hlen : s.inLen.toNat ≤ s.cfg.ibufSize) :
    commandBody .bsAsm s =
      (assembleBits s.ct (8 * s.cfg.pbufSize) s.input []).map (fun bits => { s with bitbuf := bits }) := by
  have hcheck : s.inputTooLong = false := decide_eq_false hlen.not_gt
  simp only [commandBody, bsAsmBody, hct, hcheck, Config.bitCap]
  cases assembleBits s.ct (8 * s.cfg.pbufSize) s.input [] <;> rfl

/-- Settles O33: the assembly reaches the end of a text whose codes fit, and the first symbol without such a code stops it. -/
theorem bsAsmConcatenatesCodes : Obligations.BsAsmConcatenatesCodes := by
  refine ⟨rfl, fun s => ⟨fun hct => ?_, fun hct hlong => ?_, fun hct hlen =>
    ⟨fun hcoded hfit => ?_, fun xs x ys hinput hcoded hfit => ?_⟩⟩⟩
  · exact exec_of_commandBody_error (commandBody_bsAsm_of_not_ctValid hct)
  · obtain ⟨-, -, -, -, hbsAsm⟩ := longInputRaisesError s hlong
    exact hbsAsm hct
  · have hbits : assembleBits s.ct (8 * s.cfg.pbufSize) s.input [] = .ok (encodeText s.ct s.input) := by
      simpa [assembleBits] using assembleBits_append (bits := []) [] hcoded (by simpa using hfit)
    exact exec_of_commandBody_ok (by rw [commandBody_bsAsm_of_fits hct hlen, hbits]; rfl)
  · have hreach : assembleBits s.ct (8 * s.cfg.pbufSize) s.input [] =
        assembleBits s.ct (8 * s.cfg.pbufSize) (x :: ys) (encodeText s.ct xs) :=
      hinput ▸ assembleBits_append (bits := []) (x :: ys) hcoded (by simpa using hfit)
    have hstop {e : CmdError} (h : assembleBits s.ct (8 * s.cfg.pbufSize) (x :: ys) (encodeText s.ct xs) = .error e) :
        exec .bsAsm s = .next (afterError s e.kind.code (BitVec.ofNat 32 e.info)) :=
      exec_of_commandBody_error (by rw [commandBody_bsAsm_of_fits hct hlen, hreach, h]; rfl)
    refine ⟨fun hx => hstop (e := preconditionError 8) ?_, fun c hx hfull => hstop (e := capacityError 2) ?_⟩
    · simp [assembleBits, hx]
    · simp [assembleBits, hx, hfull]

/-! ### Bits and bytes -/

/-- The number that a bit string writes has the string's bits, the last one the least significant (R9). -/
theorem testBit_foldl_bits (bs : Bits) (k : Nat) :
    (bs.foldl (fun acc (b : Bool) => acc * 2 + b.toNat) 0).testBit k = bs.reverse[k]?.getD false := by
  induction bs using List.reverseRecOn generalizing k with
  | nil => simp
  | append_singleton bs b ih =>
    rw [List.foldl_append, List.foldl_cons, List.foldl_nil, Nat.mul_comm, ← Nat.bit_val, List.reverse_concat]
    cases k with
    | zero => exact Nat.testBit_bit_zero b _
    | succ k => rw [Nat.testBit_bit_succ, ih, List.getElem?_cons_succ]

theorem getLsbD_byteOfBits (bs : Bits) {k : Nat} (hk : k < 8) : (byteOfBits bs).getLsbD k = bs.reverse[k]?.getD false := by
  rw [byteOfBits, BitVec.getLsbD_ofNat, testBit_foldl_bits, decide_eq_true hk, Bool.true_and]

/-- A byte holds the eight bits that it is made of (R7, R9). -/
theorem bits8_byteOfBits {bs : Bits} (h : bs.length = 8) : bits8 (byteOfBits bs) = bs := by
  refine List.ext_getElem (by simp [h]) fun k _ hk => ?_
  have hindex : bs.length - 1 - (7 - k) = k := by omega
  simp only [bits8, List.getElem_map, List.getElem_range]
  rw [getLsbD_byteOfBits bs (by omega), List.getElem?_reverse (by omega), hindex, List.getElem?_eq_getElem hk, Option.getD_some]

/-- Groups of eight bits, one after the other, are the bits that they are taken from. -/
theorem flatMap_groups (bits : Bits) (n : Nat) :
    (List.range n).flatMap (fun j => (bits.drop (8 * j)).take 8) = bits.take (8 * n) := by
  induction n with
  | zero => rfl
  | succ n ih => simp [List.range_succ, ih, Nat.mul_succ, List.take_add]

/-- The bytes read from the groups of a whole number of bytes hold its bits. -/
theorem unpackBytes_groups {bits : Bits} {n : Nat} (h : bits.length = 8 * n) :
    unpackBytes ((List.range n).map (fun j => byteOfBits ((bits.drop (8 * j)).take 8))) = bits := by
  have hgroup : ∀ j ∈ List.range n, bits8 (byteOfBits ((bits.drop (8 * j)).take 8)) = (bits.drop (8 * j)).take 8 := by
    refine fun j hj => bits8_byteOfBits ?_
    rw [List.mem_range] at hj
    rw [List.length_take, List.length_drop]
    omega
  rw [unpackBytes, List.flatMap_map, List.flatMap_congr hgroup, flatMap_groups, ← h, List.take_length]

/-- Unpacking undoes packing, but for the padding, which makes a whole number of bytes (R183, R186). -/
theorem unpackBytes_packBytes (bits : Bits) :
    unpackBytes (packBytes bits) = bits ++ List.replicate (padCount bits.length) false := by
  refine unpackBytes_groups ?_
  rw [List.length_append, List.length_replicate, padCount]
  omega

/-! ### BP_PACK and BP_UNPACK -/

/-- The packed bytes are the payload that BP_PACK leaves (R184). -/
theorem payload_writePayload (s : State) (bytes : List Byte) : (s.writePayload bytes).payload = bytes :=
  State.bytesAt_of_writeList (b := .pbuf) (m := s.pbuf) rfl

/-- Settles O34: what BP_PACK stores is the packed bytes, which unpack to the bits and their padding. -/
theorem bpPackPadsToBytes : Obligations.BpPackPadsToBytes := by
  refine ⟨rfl, fun s => ⟨_, exec_of_commandBody_ok rfl, rfl, padCount_le _, eight_mul_length_packBytes s.bitbuf, ?_⟩⟩
  exact (congrArg unpackBytes (payload_writePayload s _)).trans (unpackBytes_packBytes s.bitbuf)

/-- Settles O35: BP_UNPACK unpacks the payload, byte by byte. -/
theorem bpUnpackExpandsBytes : Obligations.BpUnpackExpandsBytes := by
  refine ⟨rfl, fun s => ⟨_, exec_of_commandBody_ok rfl, rfl, ?_, rfl⟩⟩
  exact (length_unpackBytes s.payload).trans (congrArg (8 * ·) (length_payload s))

end Sys2Proof.Machine
end

section
/-! PROOFS. The container codec (R200 to R209): `deser` reads the records of a table and judges the next one, CC_ENCODE writes the
bytes of a container, and each step of CC_PARSE raises its cause on the bytes that reach it. -/

namespace Sys2Proof.Machine

/-! ### Records -/

/-- The record loop judges a record by its count, then by its symbol (R204). -/
theorem deserRecords_recordBytes (x : Byte) (c : Word) (rest : List Byte) (ft : FreqTable) :
    deserRecords (recordBytes (x, c) ++ rest) ft =
      if c = 0 then .error 7 else if ft.any (fun p => p.1 == x) then .error 8 else deserRecords rest (ft ++ [(x, c)]) := by
  simp only [recordBytes, List.cons_append, List.nil_append]
  rw [deserRecords, recordCount_bytes]

/-- Behind the records of a table that meets R39, `deser` comes to judge the next record (R204). -/
theorem deserTable_serTable_append {ft : FreqTable} (hwf : tableWf ft) (p : Byte × Word) {rest : List Byte}
    (hrest : rest.length % 5 = 0) :
    deserTable (serTable ft ++ recordBytes p ++ rest) = deserRecords (recordBytes p ++ rest) ft := by
  have hlen : (serTable ft ++ recordBytes p ++ rest).length % 5 = 0 := by
    simp only [List.length_append, length_serTable, recordBytes, List.length_cons, List.length_nil]
    omega
  rw [deserTable, if_neg (not_not.2 hlen), List.append_assoc]
  exact deserRecords_append (acc := []) _ hwf

/-- Settles O37: the record loop reads back the records of a table and stops at the first bad one behind them. -/
theorem tableRecordsRoundTrip : Obligations.TableRecordsRoundTrip := by
  refine ⟨fun ft => ⟨rfl, length_serTable ft⟩, fun ft hwf => deserTable_eq_ok_iff.2 ⟨hwf, rfl⟩, fun bs hlen => if_pos hlen,
    fun ft x rest hwf hrest => ?_, fun ft x c rest hwf hrest hc hmet => ?_⟩
  · rw [deserTable_serTable_append hwf _ hrest, deserRecords_recordBytes, if_pos rfl]
  · have hany : ft.any (fun p => p.1 == x) = true := by simpa using hmet
    rw [deserTable_serTable_append hwf _ hrest, deserRecords_recordBytes, if_neg hc, if_pos hany]

/-! ### CC_ENCODE -/

/-- The bytes of a container, its parts written out (R201, R202, R203). -/
theorem containerBytes_eq (ft : FreqTable) (pad : Nat) (payload : List Byte) :
    containerBytes ft pad payload =
      decText (5 * ft.length) ++ [0x0A#8, BitVec.ofNat 8 (0x30 + pad), 0x0A#8] ++ ft.flatMap recordBytes ++ payload := by
  rw [containerBytes, metaLine, length_serTable]
  rfl

/-- What CC_ENCODE makes of a table that meets R39 is a container (R109). -/
theorem isContainer_containerBytes {ft : FreqTable} {pad : Nat} {payload : List Byte} (hwf : tableWf ft) (hpad : pad ≤ 7)
    (hempty : payload = [] → pad = 0) :
    isContainer (containerBytes ft pad payload) (decText (5 * ft.length)) pad ft payload :=
  have ⟨hne, hdigits⟩ := decText_digits (5 * ft.length)
  ⟨containerBytes_eq ft pad payload, hne, hdigits, textValue_decText _, hwf, hpad, hempty⟩

/-- The stored output is read back (R49). -/
theorem output_writeOutput (s : State) (out : List Byte) : (s.writeOutput out).output = out :=
  State.bytesAt_of_writeList (b := .obuf) (m := s.obuf) rfl

/-- Settles O38: the check on the container's length decides between the error and the stored container. -/
theorem ccEncodeWritesContainer : Obligations.CcEncodeWritesContainer := by
  refine ⟨rfl, fun s out hout => ?_⟩
  rw [← containerBytes_eq] at hout
  subst hout
  refine ⟨fun hlong => exec_of_commandBody_error (e := capacityError 4) (if_pos hlong), fun hfit => ?_⟩
  exact ⟨_, exec_of_commandBody_ok (if_neg (not_lt.2 hfit)), rfl, output_writeOutput s _, rfl, length_serTable s.ft⟩

/-! ### The round trip -/

/-- Settles O41: CC_ENCODE wrote a container with the parts of its state, and CC_PARSE takes containers and restores their parts. -/
theorem codecRoundTrip : Obligations.CodecRoundTrip := by
  intro s t u hwf hpad hempty hencode hdone hinput hlen hfit
  obtain ⟨w, hbody, rfl⟩ := commandBody_ok_of_done hencode hdone
  cases effect_of_commandBody rfl hbody
  have hempty' : s.payload = [] → s.pad = 0 := fun hnil => hempty (by rw [← length_payload, hnil, List.length_nil])
  have hcontainer : isContainer u.input (decText (5 * s.ft.length)) s.pad s.ft s.payload :=
    (hinput.trans (output_writeOutput s _)) ▸ isContainer_containerBytes hwf hpad hempty'
  obtain ⟨-, htakes, -⟩ := ccParseTakesExactlyContainers
  obtain ⟨v, hparse, hv, hpayload⟩ := htakes u _ _ _ _ hlen hcontainer (by rwa [length_payload])
  exact ⟨v, hparse, by rw [hv], by rw [hv], hpayload, by rw [hv]; exact length_payload s, by rw [hv],
    by rw [hv]; exact (length_serTable s.ft).symm⟩

/-! ### The causes of the metadata line -/

theorem findIdx?_byteLF_eq_none {bs : List Byte} (h : byteLF ∉ bs) : bs.findIdx? (fun b => b == byteLF) = none :=
  List.findIdx?_eq_none_iff.2 fun _ hb => beq_eq_false_iff_ne.2 fun heq => h (heq ▸ hb)

/-- Without an LF there is no metadata line: cause 1 (R206 step 2). -/
theorem parseMeta_of_no_byteLF {buf : List Byte} (h : byteLF ∉ buf) : parseMeta buf = .error (malformedError 1) := by
  rw [parseMeta, findIdx?_byteLF_eq_none h]

section
variable {digits : List Byte} (hfirst : byteLF ∉ digits)
include hfirst

/-- The first LF ends the bytes before it, be they digits or not (R206 step 2). -/
theorem findIdx?_first_byteLF (rest : List Byte) :
    (digits ++ byteLF :: rest).findIdx? (fun b => b == byteLF) = some digits.length := by
  rw [List.findIdx?_append, findIdx?_byteLF_eq_none hfirst, List.findIdx?_cons]
  simp

/-- A length field that is no digit text: cause 2 (R206 step 3). -/
theorem parseMeta_of_not_digits (h : ¬ (digits ≠ [] ∧ ∀ b ∈ digits, isDigit b)) (rest : List Byte) :
    parseMeta (digits ++ byteLF :: rest) = .error (malformedError 2) := by
  have hundec : undecText digits = none :=
    Option.eq_none_iff_forall_ne_some.2 fun n hn => h (undecText_eq_some_iff.1 hn).1
  simp only [parseMeta, findIdx?_first_byteLF hfirst, List.take_left, hundec]

/-- Behind a digit text the padding digit is next (R206 steps 3 and 4). -/
theorem parseMeta_of_digits (h : digits ≠ [] ∧ ∀ b ∈ digits, isDigit b) (rest : List Byte) :
    parseMeta (digits ++ byteLF :: rest) = parsePadding (digits ++ byteLF :: rest) (textValue digits) digits.length := by
  have hundec : undecText digits = some (textValue digits) := undecText_eq_some_iff.2 ⟨h, rfl⟩
  simp only [parseMeta, findIdx?_first_byteLF hfirst, List.take_left, hundec]

end

/-- The input ends before the padding digit: cause 3 (R206 step 4). -/
theorem parsePadding_nil (digits : List Byte) (len : Nat) :
    parsePadding (digits ++ [byteLF]) len digits.length = .error (malformedError 3) := by
  simp [parsePadding]

/-- The padding digit is checked before the LF behind it: causes 3 and 4 (R206 step 4). -/
theorem parsePadding_cons (digits : List Byte) (len : Nat) (c : Byte) (more : List Byte) :
    parsePadding (digits ++ byteLF :: c :: more) len digits.length =
      if c.toNat < 0x30 ∨ 0x37 < c.toNat then .error (malformedError 3)
      else if more.head? ≠ some byteLF then .error (malformedError 4)
      else .ok ⟨len, c.toNat - 0x30, digits.length + 3⟩ := by
  have hdigit : (digits ++ byteLF :: c :: more)[digits.length + 1]? = some c := by simp
  have hLF : (digits ++ byteLF :: c :: more)[digits.length + 2]? = more.head? := by
    simp [List.getElem?_append_right, List.head?_eq_getElem?]
  simp only [parsePadding, hdigit, hLF]

/-! ### The causes of the segments -/

section
variable {n : Nat} {body : List Byte} {m : MetaFields} {buf : List Byte} (hbody : buf.drop m.tableAt = body)
include hbody

/-- The table is longer than what is left: cause 5 (R206 step 5). -/
theorem parseSegments_of_short (h : body.length < m.len) : parseSegments n buf m = .error (malformedError 5) :=
  if_pos (by rwa [← List.length_drop, hbody])

/-- A table that `deser` does not take raises its cause: 6, 7 or 8 (R206 step 6). -/
theorem parseSegments_of_deserTable_error (h : m.len ≤ body.length) {k : Nat}
    (htable : deserTable (body.take m.len) = .error k) : parseSegments n buf m = .error (malformedError k) := by
  rw [parseSegments, ← List.length_drop, hbody, if_neg (not_lt.2 h)]
  simp only [htable]

/-- Behind the table the payload decides: cause 9, then whether it fits PBUF (R206 step 7, R208). -/
theorem parseSegments_of_deserTable_ok (h : m.len ≤ body.length) {ft : FreqTable}
    (htable : deserTable (body.take m.len) = .ok ft) :
    parseSegments n buf m =
      if body.length - m.len = 0 ∧ m.pad ≠ 0 then .error (malformedError 9)
      else if body.length - m.len > n then .error (capacityError 3)
      else .ok ⟨ft, m.len, m.pad, body.drop m.len⟩ := by
  rw [parseSegments, ← List.length_drop, hbody, if_neg (not_lt.2 h), ← List.drop_drop, hbody]
  simp only [htable, List.length_drop]

end

/-! ### The causes of CC_PARSE -/

theorem parseContainer_of_parseMeta_error {n : Nat} {buf : List Byte} {e : CmdError} (h : parseMeta buf = .error e) :
    parseContainer n buf = .error e := by
  rw [parseContainer, h]

theorem parseContainer_of_parseMeta_ok {n : Nat} {buf : List Byte} {m : MetaFields} (h : parseMeta buf = .ok m) :
    parseContainer n buf = parseSegments n buf m := by
  rw [parseContainer, h]

/-- An input that fits IBUF raises the error of the parser (R206). -/
theorem exec_ccParse_of_parseContainer_error {s : State} (hlen : s.inLen.toNat ≤ s.cfg.ibufSize) {e : CmdError}
    (h : parseContainer s.cfg.pbufSize s.input = .error e) :
    exec .ccParse s = .next (afterError s e.kind.code (BitVec.ofNat 32 e.info)) := by
  refine exec_of_commandBody_error ?_
  have hcheck : ¬ s.inputTooLong = true := by simpa [State.inputTooLong] using hlen
  rw [commandBody, ccParseBody, if_neg hcheck, h]

/-- Settles O40: each step of the parser, reached with the steps before it passed, raises its cause. -/
theorem ccParseCausesInOrder : Obligations.CcParseCausesInOrder := by
  intro s hlen
  have hmeta {e : CmdError} (h : parseMeta s.input = .error e) :=
    exec_ccParse_of_parseContainer_error hlen (parseContainer_of_parseMeta_error h)
  refine ⟨fun hnone => hmeta (parseMeta_of_no_byteLF hnone), fun digits rest hinput hfirst => ⟨fun hbad => ?_, fun hdigits => ?_⟩⟩
  · exact hmeta (hinput ▸ parseMeta_of_not_digits hfirst hbad rest)
  have hpadding : parseMeta s.input = parsePadding s.input (textValue digits) digits.length :=
    hinput ▸ parseMeta_of_digits hfirst hdigits rest
  refine ⟨fun hrest => ?_, fun c more hrest => ?_⟩ <;> subst hrest
  · exact hmeta (hpadding.trans (hinput ▸ parsePadding_nil digits _))
  replace hpadding := hpadding.trans (hinput ▸ parsePadding_cons digits _ c more)
  refine ⟨fun hrange => hmeta (hpadding.trans (if_pos hrange)), fun hlow hhigh => ?_⟩
  rw [if_neg (by omega)] at hpadding
  refine ⟨fun hLF => hmeta (hpadding.trans (if_pos hLF)), fun body hmore => ?_⟩
  subst hmore
  replace hpadding := hpadding.trans (if_neg (not_not.2 rfl))
  have hbody : s.input.drop (digits.length + 3) = body := by simp [hinput, List.drop_append]
  have hsegments {e : CmdError} (h : parseSegments s.cfg.pbufSize s.input _ = .error e) :=
    exec_ccParse_of_parseContainer_error hlen ((parseContainer_of_parseMeta_ok hpadding).trans h)
  refine ⟨fun hshort => hsegments (parseSegments_of_short hbody hshort), fun henough =>
    ⟨fun k htable => hsegments (parseSegments_of_deserTable_error hbody henough htable), fun ft htable => ?_⟩⟩
  have hpayload := parseSegments_of_deserTable_ok (n := s.cfg.pbufSize)
    (m := ⟨textValue digits, c.toNat - 0x30, digits.length + 3⟩) hbody henough htable
  dsimp only at hpayload
  refine ⟨fun hempty hc => ?_, fun hlong => ?_⟩
  · have hvalue : c.toNat ≠ 0x30 := fun h => hc (BitVec.eq_of_toNat_eq h)
    exact hsegments (hpayload.trans (if_pos (by omega)))
  · exact hsegments (hpayload.trans ((if_neg (by omega)).trans (if_pos hlong)))

end Sys2Proof.Machine
end

section
/-! PROOFS. The bitstream decoder (R220 to R227): in a prefix-free code table the bits since the last symbol complete at most
one code, so BD_DECODE passes over the codes of a text (R226) and stops at the first bit that leads nowhere; and those bits are the
path to the node that the walk of the tree has reached (R225). -/

namespace Sys2Proof.Machine

/-! ### Looking up codes -/

theorem mem_allSymbols (x : Byte) : x ∈ allSymbols :=
  List.mem_map.2 ⟨x.toNat, List.mem_range.2 x.isLt, BitVec.ofNat_toNat 8 x⟩

theorem mem_codesOf {ct : CodeTable} {c : Bits} : c ∈ codesOf ct ↔ ∃ x, ct.get x = some c := by
  rw [codesOf, List.mem_filterMap]
  constructor
  · rintro ⟨o, ho, hc⟩
    obtain ⟨i, hi, rfl⟩ := List.getElem_of_mem ho
    exact ⟨_, (ct.getElem_eq_get hi).symm.trans hc⟩
  · rintro ⟨x, hx⟩
    exact ⟨some c, hx ▸ Vector.mem_toList_iff.2 (Vector.getElem_mem x.isLt), rfl⟩

/-- Where no code is a prefix of another, a code that is a prefix of a code is the code of the same symbol. -/
theorem symbol_eq_of_get_prefix {ct : CodeTable} (h : codesWf ct) {x y : Byte} {c d : Bits} (hx : ct.get x = some c)
    (hy : ct.get y = some d) (hprefix : c <+: d) : x = y := by
  obtain ⟨-, hfree⟩ := h
  have hpair := List.pairwise_iff_getElem.1 (List.pairwise_filterMap.1 hfree)
  have hlen (z : Byte) : z.toNat < ct.toList.length := by simpa using z.isLt
  have hget (z : Byte) : ct.toList[z.toNat]'(hlen z) = ct.get z := by rw [ct.getElem_eq_get, BitVec.ofNat_toNat, BitVec.setWidth_eq]
  by_contra hne
  rcases Nat.lt_or_gt_of_ne fun heq => hne (BitVec.eq_of_toNat_eq heq) with hlt | hlt
  · exact (hpair _ _ (hlen x) (hlen y) hlt c ((hget x).trans hx) d ((hget y).trans hy)).1 hprefix
  · exact (hpair _ _ (hlen y) (hlen x) hlt d ((hget y).trans hy) c ((hget x).trans hx)).2 hprefix

/-- In a prefix-free table a code that is a prefix of a code is that code. -/
theorem code_eq_of_prefix {ct : CodeTable} (h : codesWf ct) {c d : Bits} (hc : c ∈ codesOf ct) (hd : d ∈ codesOf ct)
    (hprefix : c <+: d) : c = d := by
  obtain ⟨x, hx⟩ := mem_codesOf.1 hc
  obtain ⟨y, hy⟩ := mem_codesOf.1 hd
  obtain rfl := symbol_eq_of_get_prefix h hx hy hprefix
  exact Option.some.inj (hx.symm.trans hy)

/-- The inverse table holds exactly the codes (R222). -/
theorem symbolOf_eq_none {ct : CodeTable} {bs : Bits} : symbolOf ct bs = none ↔ bs ∉ codesOf ct := by
  simp [symbolOf, mem_codesOf, mem_allSymbols]

/-- The inverse table of a prefix-free table gives the symbol whose code it is asked for (R222). -/
theorem symbolOf_of_get {ct : CodeTable} (h : codesWf ct) {x : Byte} {bs : Bits} (hx : ct.get x = some bs) :
    symbolOf ct bs = some x := by
  rcases hsymbol : symbolOf ct bs with _ | y
  · exact absurd (mem_codesOf.2 ⟨x, hx⟩) (symbolOf_eq_none.1 hsymbol)
  · have hy : ct.get y = some bs := by simpa using List.find?_some (p := fun x => ct.get x == some bs) hsymbol
    rw [symbol_eq_of_get_prefix h hy hx (List.prefix_refl bs)]

theorem isProperCodePrefix_eq_true {ct : CodeTable} {acc : Bits} :
    isProperCodePrefix ct acc = true ↔ ∃ c ∈ codesOf ct, acc <+: c ∧ acc ≠ c := by
  simp only [isProperCodePrefix, List.any_eq_true, mem_allSymbols, true_and, mem_codesOf]
  constructor
  · rintro ⟨x, hx⟩
    rcases hc : ct.get x with _ | c <;> simp only [hc, Bool.and_eq_true, List.isPrefixOf_iff_prefix, bne_iff_ne] at hx
    · contradiction
    · exact ⟨c, ⟨x, hc⟩, hx.1, hx.2.symm⟩
  · rintro ⟨c, ⟨x, hc⟩, hprefix, hne⟩
    refine ⟨x, ?_⟩
    simp only [hc, Bool.and_eq_true, List.isPrefixOf_iff_prefix, bne_iff_ne]
    exact ⟨hprefix, hne.symm⟩

/-! ### One bit of the decoder -/

section
variable {ct : CodeTable} {cap i : Nat} {acc : Bits} {b : Bool} {out : List Byte}

/-- A bit that completes a code emits its symbol, or finds OBUF full (R222). -/
theorem decodeBits_cons_of_get (h : codesWf ct) {x : Byte} (hx : ct.get x = some (acc ++ [b])) (bits : Bits) :
    decodeBits ct cap (b :: bits) i acc out =
      if out.length = cap then .error (capacityError 4) else decodeBits ct cap bits (i + 1) [] (out ++ [x]) := by
  simp only [decodeBits, symbolOf_of_get h hx]

/-- A bit inside a code is kept (R222). -/
theorem decodeBits_cons_of_properPrefix (h : codesWf ct) {c : Bits} (hc : c ∈ codesOf ct) (hprefix : acc ++ [b] <+: c)
    (hne : acc ++ [b] ≠ c) (bits : Bits) :
    decodeBits ct cap (b :: bits) i acc out = decodeBits ct cap bits (i + 1) (acc ++ [b]) out := by
  have hnone : symbolOf ct (acc ++ [b]) = none :=
    symbolOf_eq_none.2 fun hmem => hne (code_eq_of_prefix h hmem hc hprefix)
  have hinside : isProperCodePrefix ct (acc ++ [b]) = true := isProperCodePrefix_eq_true.2 ⟨c, hc, hprefix, hne⟩
  simp only [decodeBits, hnone, hinside, if_true]

/-- A bit that leads nowhere is an unknown symbol at its position (R224). -/
theorem decodeBits_cons_of_no_prefix (hno : ∀ c ∈ codesOf ct, ¬ acc ++ [b] <+: c) (bits : Bits) :
    decodeBits ct cap (b :: bits) i acc out = .error (unknownSymbolError i) := by
  have hnone : symbolOf ct (acc ++ [b]) = none := symbolOf_eq_none.2 fun hmem => hno _ hmem (List.prefix_refl _)
  have houtside : ¬ isProperCodePrefix ct (acc ++ [b]) = true := fun hinside =>
    have ⟨c, hc, hprefix, _⟩ := isProperCodePrefix_eq_true.1 hinside
    hno c hc hprefix
  simp only [decodeBits, hnone, if_neg houtside]

/-- Bits that end inside a code are an unknown symbol at their end (R223). -/
theorem decodeBits_nil_of_ne_nil (hacc : acc ≠ []) : decodeBits ct cap [] i acc out = .error (unknownSymbolError i) := by
  simp [decodeBits, hacc]

end

/-! ### A text and the beginning of a code -/

/-- The decoder passes over bits that stay inside a code. -/
theorem decodeBits_append_of_properPrefix {ct : CodeTable} (h : codesWf ct) {cap : Nat} {c : Bits} (hc : c ∈ codesOf ct)
    {d : Bits} (rest : Bits) {i : Nat} {acc : Bits} {out : List Byte} (hprefix : acc ++ d <+: c) (hne : acc ++ d ≠ c) :
    decodeBits ct cap (d ++ rest) i acc out = decodeBits ct cap rest (i + d.length) (acc ++ d) out := by
  induction d generalizing i acc with
  | nil => simp
  | cons b d ih =>
    rw [List.append_cons] at hprefix hne
    have hbit : acc ++ [b] <+: c := (List.prefix_append _ _).trans hprefix
    have hbitNe : acc ++ [b] ≠ c := by
      rintro rfl
      exact hne (hprefix.eq_of_length_le (by simp))
    rw [List.cons_append, decodeBits_cons_of_properPrefix h hc hbit hbitNe, ih hprefix hne, ← List.append_cons,
      List.length_cons, Nat.add_right_comm, Nat.add_assoc]

/-- The decoder reads a whole code as its symbol. -/
theorem decodeBits_code_append {ct : CodeTable} (h : codesWf ct) {cap : Nat} {x : Byte} {c : Bits} (hx : ct.get x = some c)
    (rest : Bits) {i : Nat} {out : List Byte} (hroom : out.length ≠ cap) :
    decodeBits ct cap (c ++ rest) i [] out = decodeBits ct cap rest (i + c.length) [] (out ++ [x]) := by
  have hc := mem_codesOf.2 ⟨x, hx⟩
  rcases List.eq_nil_or_concat' c with rfl | ⟨d, b, rfl⟩
  · obtain ⟨hne, -⟩ := h
    exact absurd rfl (hne _ hc)
  · rw [← List.append_cons, decodeBits_append_of_properPrefix h hc (acc := []) _ (List.prefix_append d [b]) (by simp),
      List.nil_append, decodeBits_cons_of_get h hx, if_neg hroom, List.length_append, List.length_singleton, Nat.add_assoc]

/-- The decoder reads the codes of a text that fits as the text (R226). -/
theorem decodeBits_encodeText_append {ct : CodeTable} (h : codesWf ct) {cap : Nat} {xs : List Byte} (hcoded : allCoded ct xs)
    (rest : Bits) {i : Nat} {out : List Byte} (hfit : out.length + xs.length ≤ cap) :
    decodeBits ct cap (encodeText ct xs ++ rest) i [] out =
      decodeBits ct cap rest (i + (encodeText ct xs).length) [] (out ++ xs) := by
  induction xs generalizing i out with
  | nil => simp [encodeText]
  | cons x xs ih =>
    obtain ⟨hx, hxs⟩ := List.forall_mem_cons.1 hcoded
    obtain ⟨c, hc⟩ := Option.isSome_iff_exists.1 hx
    rw [List.length_cons] at hfit
    rw [encodeText_cons hc, List.append_assoc, decodeBits_code_append h hc _ (by omega),
      ih hxs (by rw [List.length_append, List.length_singleton]; omega), List.length_append, Nat.add_assoc, ← List.append_cons]

/-! ### BD_DECODE -/

theorem commandBody_bdDecode_of_not_ctValid {s : State} (hct : s.ctValid = false) :
    commandBody .bdDecode s = .error missingCodeTableError := by
  simp [commandBody, bdDecodeBody, hct]

theorem commandBody_bdDecode_of_long_pad {s : State} (hct : s.ctValid = true) (hpad : s.bitbuf.length < s.pad) :
    commandBody .bdDecode s = .error (preconditionError 9) := by
  simp [commandBody, bdDecodeBody, hct, hpad]

section
variable {s : State} (hct : s.ctValid = true) (hpad : s.pad ≤ s.bitbuf.length)
include hct hpad

/-- With a code table and a padding that the bits contain, the decoder loop decides how BD_DECODE ends (R222). -/
theorem commandBody_bdDecode_of_fits :
    commandBody .bdDecode s =
      (decodeBits s.ct s.cfg.obufSize (s.bitbuf.take (s.bitbuf.length - s.pad)) 0 [] []).map s.writeOutput := by
  simp only [commandBody, bdDecodeBody, hct, if_neg hpad.not_gt]
  cases decodeBits s.ct s.cfg.obufSize (s.bitbuf.take (s.bitbuf.length - s.pad)) 0 [] [] <;> rfl

theorem exec_bdDecode_of_decodeBits_ok {out : List Byte}
    (h : decodeBits s.ct s.cfg.obufSize (s.bitbuf.take (s.bitbuf.length - s.pad)) 0 [] [] = .ok out) :
    exec .bdDecode s = .next (s.writeOutput out).complete :=
  exec_of_commandBody_ok (by rw [commandBody_bdDecode_of_fits hct hpad, h]; rfl)

theorem exec_bdDecode_of_decodeBits_error {e : CmdError}
    (h : decodeBits s.ct s.cfg.obufSize (s.bitbuf.take (s.bitbuf.length - s.pad)) 0 [] [] = .error e) :
    exec .bdDecode s = .next (afterError s e.kind.code (BitVec.ofNat 32 e.info)) :=
  exec_of_commandBody_error (by rw [commandBody_bdDecode_of_fits hct hpad, h]; rfl)

end

/-- Settles O42: the decoder loop reads the codes of the text, behind which no bits are left. -/
theorem bdDecodeInvertsAssembly : Obligations.BdDecodeInvertsAssembly := by
  intro s xs hct hwf hpad hbits hcoded hfit
  have hdecode : decodeBits s.ct s.cfg.obufSize (s.bitbuf.take (s.bitbuf.length - s.pad)) 0 [] [] = .ok xs := by
    rw [hbits, ← List.append_nil (encodeText s.ct xs), decodeBits_encodeText_append hwf hcoded [] (by simpa using hfit)]
    rfl
  exact ⟨_, exec_bdDecode_of_decodeBits_ok hct hpad hdecode, rfl, output_writeOutput s xs, rfl⟩

/-- Settles O43: the decoder loop passes over the codes of the text and the bits inside a code, and the next bit or the end decides
the error. -/
theorem bdDecodeErrors : Obligations.BdDecodeErrors := by
  refine fun s => ⟨fun hct => ?_, fun hct hpad => ?_, fun xs acc tail hct hwf hpad hbits hcoded hfit hacc => ?_⟩
  · exact exec_of_commandBody_error (commandBody_bdDecode_of_not_ctValid hct)
  · exact exec_of_commandBody_error (commandBody_bdDecode_of_long_pad hct hpad)
  have hinside : decodeBits s.ct s.cfg.obufSize (acc ++ tail) (encodeText s.ct xs).length [] xs =
      decodeBits s.ct s.cfg.obufSize tail ((encodeText s.ct xs).length + acc.length) acc xs := by
    rcases hacc with rfl | ⟨c, hc, hprefix, hne⟩
    · rfl
    · exact decodeBits_append_of_properPrefix hwf hc (acc := []) tail hprefix hne
  have hreach : decodeBits s.ct s.cfg.obufSize (s.bitbuf.take (s.bitbuf.length - s.pad)) 0 [] [] =
      decodeBits s.ct s.cfg.obufSize tail ((encodeText s.ct xs).length + acc.length) acc xs := by
    rw [hbits, List.append_assoc, decodeBits_encodeText_append hwf hcoded _ (by simpa using hfit), Nat.zero_add,
      List.nil_append, hinside]
  have hstop {e : CmdError}
      (h : decodeBits s.ct s.cfg.obufSize tail ((encodeText s.ct xs).length + acc.length) acc xs = .error e) :=
    exec_bdDecode_of_decodeBits_error hct hpad (hreach.trans h)
  refine ⟨?_, ?_, ?_⟩
  · rintro rfl hne
    have hend : s.bitbuf.length - s.pad = (encodeText s.ct xs).length + acc.length := by
      simpa using congrArg List.length hbits
    exact hend ▸ hstop (decodeBits_nil_of_ne_nil hne)
  · rintro b rest rfl hno
    exact hstop (decodeBits_cons_of_no_prefix hno rest)
  · rintro b rest rfl hcode hfull
    obtain ⟨x, hx⟩ := mem_codesOf.1 hcode
    exact hstop ((decodeBits_cons_of_get hwf hx rest).trans (if_pos hfull))

/-! ### The walk of the tree -/

section
variable {nodes : List Node} {root cap i n : Nat} {b : Bool} {bits : Bits} {out : List Byte}

/-- A root that is a leaf emits its symbol on 0 and fails on 1 (R225). -/
theorem treeWalk_leaf_cons {w : Nat} {x : Byte} (hn : nodes[n]? = some (.leaf x w)) :
    treeWalk nodes root cap (b :: bits) i n out =
      if b then .error (unknownSymbolError i)
      else if out.length = cap then .error (capacityError 4)
      else treeWalk nodes root cap bits (i + 1) root (out ++ [x]) := by
  simp only [treeWalk, hn]

/-- A step to a leaf emits its symbol and goes back to the root (R225). -/
theorem treeWalk_cons_of_child_leaf {m w : Nat} {p : Node} {x : Byte} (hn : nodes[n]? = some p) (hchild : p.child? b = some m)
    (hm : nodes[m]? = some (.leaf x w)) :
    treeWalk nodes root cap (b :: bits) i n out =
      if out.length = cap then .error (capacityError 4) else treeWalk nodes root cap bits (i + 1) root (out ++ [x]) := by
  obtain ⟨v, l, r, rfl, rfl⟩ := Node.child?_eq_some.1 hchild
  simp only [treeWalk, hn, hm]

/-- A step to an internal node goes on from there (R225). -/
theorem treeWalk_cons_of_child_internal {m w l r : Nat} {p : Node} (hn : nodes[n]? = some p) (hchild : p.child? b = some m)
    (hm : nodes[m]? = some (.internal w l r)) :
    treeWalk nodes root cap (b :: bits) i n out = treeWalk nodes root cap bits (i + 1) m out := by
  obtain ⟨v, l', r', rfl, rfl⟩ := Node.child?_eq_some.1 hchild
  simp only [treeWalk, hn, hm]

end

/-- From every allocated node a path leads to a leaf: each step lowers the index (R42). -/
theorem exists_leafPath {nodes : List Node} (h : storeWf nodes) (i : Nat) (hi : i < nodes.length) :
    ∃ c x w, followPath nodes i c = some (.leaf x w) := by
  induction i using Nat.strong_induction_on with
  | h i ih =>
    rcases hn : nodes[i] with ⟨x, w⟩ | ⟨w, l, r⟩
    · exact ⟨[], x, w, List.getElem?_eq_some_iff.2 ⟨hi, hn⟩⟩
    · have hnode := List.getElem?_eq_some_iff.2 ⟨hi, hn⟩
      obtain ⟨hl, -⟩ := children_lt_of_storeWf h hnode
      obtain ⟨c, x, v, hc⟩ := ih l hl (hl.trans hi)
      exact ⟨false :: c, x, v, (followPath_internal_cons hnode false c).trans hc⟩

/-- Under an internal root, the walk from the node that the bits since the last symbol lead to does what the decoder does. -/
theorem treeWalk_eq_decodeBits_of_followIndex {nodes : List Node} (h : storeWf nodes) {root w l r : Nat}
    (hroot : nodes[root]? = some (.internal w l r)) {cap : Nat} (bits : Bits) {i n v a d : Nat} {acc : Bits} {out : List Byte}
    (hacc : followIndex nodes root acc = some n) (hn : nodes[n]? = some (.internal v a d)) :
    treeWalk nodes root cap bits i n out = decodeBits (genCodes nodes root) cap bits i acc out := by
  have hwf := codesWf_genCodes h root
  induction bits generalizing i n v a d acc out with
  | nil =>
    have hstart : n = root ↔ acc = [] := by
      constructor
      · rintro rfl
        exact followIndex_injective h hacc rfl
      · rintro rfl
        exact (Option.some.inj hacc).symm
    simp only [treeWalk, decodeBits, hstart, List.isEmpty_iff]
  | cons b bits ih =>
    have hchild : (Node.internal v a d).child? b = some (if b then d else a) := rfl
    generalize (if b then d else a) = m at hchild
    have hm : followIndex nodes root (acc ++ [b]) = some m := followIndex_concat_eq_some.2 ⟨n, _, hacc, hn, hchild⟩
    have hlt : m < nodes.length := (child?_lt h hn hchild).trans (List.getElem?_eq_some_iff.1 hn).1
    rcases hnode : nodes[m]? with _ | ⟨x, u⟩ | ⟨u, a', d'⟩
    · exact absurd hlt (List.getElem?_eq_none_iff.1 hnode).not_gt
    · have hx := (get_genCodes_internal h hroot).2 ⟨u, followPath_eq_some.2 ⟨m, hm, hnode⟩⟩
      rw [treeWalk_cons_of_child_leaf hn hchild hnode, decodeBits_cons_of_get hwf hx, ih (acc := []) rfl hroot]
    · obtain ⟨c, x, y, hleaf⟩ := exists_leafPath h m hlt
      have hcode : (genCodes nodes root).get x = some (acc ++ [b] ++ c) :=
        (get_genCodes_internal h hroot).2 ⟨y, by rw [followPath_append, hm, Option.bind_some, hleaf]⟩
      have hne : acc ++ [b] ≠ acc ++ [b] ++ c := by
        intro heq
        obtain rfl := List.self_eq_append_right.1 heq
        simp [followPath_nil, hnode] at hleaf
      rw [treeWalk_cons_of_child_internal hn hchild hnode,
        decodeBits_cons_of_properPrefix hwf (mem_codesOf.2 ⟨x, hcode⟩) (List.prefix_append _ _) hne, ih hm hnode]

/-- A root that is a leaf has the one code 0, so the walk and the decoder emit its symbol on 0 and fail on 1 (R172, R225). -/
theorem treeWalk_eq_decodeBits_of_leaf {nodes : List Node} (h : storeWf nodes) {root w : Nat} {x : Byte}
    (hroot : nodes[root]? = some (.leaf x w)) {cap : Nat} (bits : Bits) {i : Nat} {out : List Byte} :
    treeWalk nodes root cap bits i root out = decodeBits (genCodes nodes root) cap bits i [] out := by
  induction bits generalizing i out with
  | nil => simp [treeWalk, decodeBits]
  | cons b bits ih =>
    rw [treeWalk_leaf_cons hroot]
    cases b with
    | false =>
      have hx : (genCodes nodes root).get x = some ([] ++ [false]) := (get_genCodes_leaf hroot x).trans (if_pos rfl)
      rw [decodeBits_cons_of_get (codesWf_genCodes h root) hx, ← ih]
      rfl
    | true =>
      have hno : ∀ c ∈ codesOf (genCodes nodes root), ¬ [] ++ [true] <+: c := by
        intro c hc
        obtain ⟨y, hy⟩ := mem_codesOf.1 hc
        rw [get_genCodes_leaf hroot, Option.ite_none_right_eq_some] at hy
        obtain ⟨-, rfl⟩ : y = x ∧ [false] = c := by simpa using hy
        decide
      rw [decodeBits_cons_of_no_prefix hno]
      rfl

/-- The walk of an allocated tree does what the decoder does with the codes of that tree (R225). -/
theorem treeWalk_eq_decodeBits {nodes : List Node} (h : storeWf nodes) {root : Nat} (hlt : root < nodes.length) (cap : Nat)
    (bits : Bits) : treeWalk nodes root cap bits 0 root [] = decodeBits (genCodes nodes root) cap bits 0 [] [] := by
  rcases hroot : nodes[root]? with _ | ⟨x, w⟩ | ⟨w, l, r⟩
  · exact absurd hlt (List.getElem?_eq_none_iff.1 hroot).not_gt
  · exact treeWalk_eq_decodeBits_of_leaf h hroot bits
  · exact treeWalk_eq_decodeBits_of_followIndex h hroot bits rfl hroot

/-- Settles O44: the code table is that of the active tree, whose walk does what the decoder loop does. -/
theorem bdDecodeEqualsTreeWalk : Obligations.BdDecodeEqualsTreeWalk := by
  rintro s ⟨⟨-, hstore, -, hallocated⟩, hcurrent⟩ hct hpad
  obtain ⟨htree, hcodes⟩ := hcurrent hct
  rw [treeWalk_eq_decodeBits hstore (hallocated htree), ← hcodes]
  refine ⟨fun out hout => ?_, fun e => exec_bdDecode_of_decodeBits_error hct hpad⟩
  exact ⟨_, exec_bdDecode_of_decodeBits_ok hct hpad hout, rfl, output_writeOutput s out, rfl⟩

end Sys2Proof.Machine
end

section
/-! PROOFS. How a command ends: NOP and CLR (R230, R231), the completion or the error entry of every command (R252, R256), and the
interrupt request that either of them raises (R262). -/

namespace Sys2Proof.Machine

/-! ### Housekeeping commands -/

/-- Settles O18: NOP completes with the state it met, and its opcode is not CLR's. -/
theorem nopOnlyCompletes : Obligations.NopOnlyCompletes :=
  ⟨rfl, fun _ => rfl, fun _ hbusy herr => writeCmd_of_err hbusy herr (by decide)⟩

/-- Settles O19: CLR is `clear_instance()` and the return from the error state, and its word alone passes the check of ERR. -/
theorem clrStartsNewInstance : Obligations.ClrStartsNewInstance :=
  ⟨rfl, fun _ => rfl, fun _ hbusy => writeCmd_eq_accept hbusy (.inr rfl), fun _ _ hbusy herr hop => writeCmd_of_err hbusy herr hop⟩

/-! ### Completion and error entry -/

/-- The codes of the error kinds are 1 to 8 (R250). -/
theorem ErrKind.code_range (k : ErrKind) : 1 ≤ k.code.toNat ∧ k.code.toNat ≤ 8 := by
  cases k <;> decide

/-- No command but CLR changes ERR before it completes (R28). -/
theorem err_of_commandBody {i : Instr} (hi : i ≠ .clr) {s u : State} (h : commandBody i s = .ok u) : u.err = s.err := by
  have herr : u.hostPart.err = s.hostPart.err := by rw [hostPart_of_commandBody hi h]
  exact herr

/-- The commands that raise no error in execution (R252). -/
theorem commandBody_ok_of_infallible {i : Instr} (hi : i ∈ [Instr.nop, .clr, .pqSize, .pqEmpty, .bpPack, .bpUnpack]) (s : State) :
    ∃ u, commandBody i s = .ok u := by
  simp only [List.mem_cons, List.not_mem_nil, or_false] at hi
  rcases hi with rfl | rfl | rfl | rfl | rfl | rfl <;> exact ⟨_, rfl⟩

/-- Settles O50: the pseudocode of a command succeeds, and the command completes, or it raises an error, whose kind has its code. -/
theorem everyCommandEnds : Obligations.EveryCommandEnds := by
  intro i s
  cases hbody : commandBody i s with
  | ok u =>
    refine ⟨u.complete, exec_of_commandBody_ok hbody, rfl, .inl ⟨rfl, fun hi => ?_, fun hi => ?_⟩, fun _ => rfl⟩
    · subst hi
      obtain rfl := Except.ok.inj hbody
      rfl
    · exact (State.complete_err u).trans (err_of_commandBody hi hbody)
  | error e =>
    obtain ⟨hlow, hhigh⟩ := e.kind.code_range
    refine ⟨_, exec_of_commandBody_error hbody, rfl, .inr ⟨_, _, hlow, hhigh, rfl⟩, fun hi => ?_⟩
    obtain ⟨u, hu⟩ := commandBody_ok_of_infallible hi s
    rw [hbody] at hu
    contradiction

/-! ### The interrupt request -/

/-- A command ends with DONE or with ERR set (R27, R256). -/
theorem done_or_err_of_exec {i : Instr} {s t : State} (h : exec i s = .next t) : (t.done || t.err) = true := by
  rcases exec_cases h with ⟨u, -, rfl⟩ | ⟨e, -, rfl⟩
  · rfl
  · rfl

/-- Settles O16: acceptance lowers DONE, the end of a command raises DONE or ERR and leaves IE, and IE gates both. -/
theorem interruptRequestIsLevel : Obligations.InterruptRequestIsLevel := by
  refine ⟨fun _ => rfl, fun s w herr => ?_, fun i s t h => ?_, fun s v hv => ?_⟩
  · simp [State.irq, herr]
  · obtain ⟨-, -, -, hie, -⟩ := sameHostState_of_exec h
    rw [State.irq, done_or_err_of_exec h, Bool.and_true, hie]
  · simp only [State.irq, State.writeCtrl_ie, hv, Bool.false_and]

end Sys2Proof.Machine
end

section
/-! PROOFS. The code table of a frequency table (R161, R171, R232): from the root of the tree that TB_BUILD makes a path leads to
every node, so every symbol of the table has a code. -/

namespace Sys2Proof.Machine

/-! ### From the root to every node -/

theorem exists_child?_of_isParentOf {n : Node} {i : Nat} (h : n.isParentOf i = true) : ∃ b, n.child? b = some i := by
  cases n with
  | leaf x w => contradiction
  | internal w l r =>
    simp only [Node.isParentOf, Bool.or_eq_true, beq_iff_eq] at h
    rcases h with rfl | rfl
    · exact ⟨false, rfl⟩
    · exact ⟨true, rfl⟩

/-- Where every node but the last has a parent, a path from the last leads to each: a parent has the larger index (R42). -/
theorem exists_followIndex {nodes : List Node} (h : storeWf nodes) {root : Nat} (hlen : nodes.length = root + 1)
    (hparent : ∀ i < root, ∃ n ∈ nodes, n.isParentOf i = true) (i : Nat) (hi : i ≤ root) :
    ∃ c, followIndex nodes root c = some i := by
  rcases hi.eq_or_lt with rfl | hlt
  · exact ⟨[], rfl⟩
  · obtain ⟨n, hn, hpar⟩ := hparent i hlt
    obtain ⟨p, hp⟩ := List.mem_iff_getElem?.1 hn
    obtain ⟨b, hchild⟩ := exists_child?_of_isParentOf hpar
    have hup : i < p := child?_lt h hp hchild
    have hplt : p < nodes.length := (List.getElem?_eq_some_iff.1 hp).1
    obtain ⟨c, hc⟩ := exists_followIndex h hlen hparent p (by omega)
    exact ⟨c ++ [b], followIndex_concat_eq_some.2 ⟨p, n, hc, hp, hchild⟩⟩
termination_by root - i

/-- CG_GEN gives the symbol of a leaf that a path leads to a code (R171, R172). -/
theorem isSome_get_genCodes {nodes : List Node} (h : storeWf nodes) {root w : Nat} {x : Byte} {c : Bits}
    (hleaf : followPath nodes root c = some (.leaf x w)) : ((genCodes nodes root).get x).isSome = true := by
  rcases hroot : nodes[root]? with _ | ⟨y, v⟩ | ⟨v, l, r⟩
  · rw [followPath_none hroot] at hleaf
    contradiction
  · obtain rfl : c = [] := eq_nil_of_followPath_append (c := []) hroot hleaf
    obtain ⟨rfl, rfl⟩ : y = x ∧ v = w := by simpa [followPath_nil, hroot] using hleaf
    rw [get_genCodes_leaf hroot, if_pos rfl]
    rfl
  · exact Option.isSome_iff_exists.2 ⟨c, (get_genCodes_internal h hroot).2 ⟨w, hleaf⟩⟩

/-! ### The codes of a table -/

theorem symbol?_eq_some_iff {n : Node} {x : Byte} : n.symbol? = some x ↔ ∃ w, n = .leaf x w := by
  cases n <;> simp [Node.symbol?]

/-- The codes that a table determines are as R173 and R174 ask. -/
theorem codesWf_codeTableOf {ft : FreqTable} (hft : tableWf ft) : codesWf (codeTableOf ft) :=
  codesWf_genCodes (forestWf_buildTree hft).store _

/-- Every symbol of a table has a code in the table's tree (R161, R232). -/
theorem isSome_get_codeTableOf {ft : FreqTable} (hft : tableWf ft) {x : Byte} (hx : x ∈ ft.map Prod.fst) :
    ((codeTableOf ft).get x).isSome = true := by
  have hne : ft ≠ [] := by
    rintro rfl
    contradiction
  have hstore : storeWf (buildTree ft).1 := (forestWf_buildTree hft).store
  have hpos := List.length_pos_iff.2 hne
  have hlen : (buildTree ft).1.length = 2 * ft.length - 2 + 1 := by rw [length_buildTree hne]; omega
  have hparent : ∀ i < 2 * ft.length - 2, ∃ n ∈ (buildTree ft).1, n.isParentOf i = true := fun i hi =>
    List.countP_pos_iff.1 (by rw [countP_parents_buildTree hne, if_pos hi]; exact Nat.one_pos)
  rw [← symbols_buildTree ft] at hx
  obtain ⟨n, hn, hsymbol⟩ := List.mem_filterMap.1 hx
  obtain ⟨w, rfl⟩ := symbol?_eq_some_iff.1 hsymbol
  obtain ⟨i, hi⟩ := List.mem_iff_getElem?.1 hn
  have hilt : i < (buildTree ft).1.length := (List.getElem?_eq_some_iff.1 hi).1
  obtain ⟨c, hc⟩ := exists_followIndex hstore hlen hparent i (by omega)
  exact isSome_get_genCodes hstore (followPath_eq_some.2 ⟨i, hc, hi⟩)

/-- Every symbol of an input has a code in the tree of the input's table (R132, R234). -/
theorem allCoded_buildTable {xs : List Byte} (hlen : xs.length < 2 ^ 32) : allCoded (codeTableOf (buildTable xs)) xs :=
  fun _ hx => isSome_get_codeTableOf (tableWf_buildTable hlen) (mem_keys_buildTable.2 hx)

end Sys2Proof.Machine
end

section
/-! PROOFS. COMPRESS (R232 to R234, R238, R239): a function of the parameters and the input alone says which error the stages raise,
if any, and without one the stages leave the input's table, its tree, the codes, the packed bits and the container. -/

namespace Sys2Proof.Machine

/-! ### Stages -/

section
variable {f : State → Except CmdError State} {s : State} (fs : List (State → Except CmdError State))

/-- A stage that succeeds hands over to the rest (R233). -/
theorem runStages_cons_of_ok {t : State} (h : f s = .ok t) : runStages (f :: fs) s = runStages fs t := by
  simp only [runStages, h]

/-- A stage that raises an error ends the run (R233). -/
theorem runStages_cons_of_error {e : CmdError} (h : f s = .error e) : runStages (f :: fs) s = .error e := by
  simp only [runStages, h]

end

/-- The state with the tree of its table active and that tree's codes in the code table. -/
def State.withCodes (s : State) : State :=
  { s with
    node := (buildTree s.ft).1, pq := [], root := 2 * s.ft.length - 2, treeValid := true, ctValid := true
    ct := codeTableOf s.ft }

/-- TB_BUILD and CG_GEN of a table that is not empty make its tree and its codes (R152, R171). -/
theorem runStages_tbBuild_cgGen {s : State} (hft : s.ft ≠ []) (fs : List (State → Except CmdError State)) :
    runStages (tbBuildBody :: cgGenBody :: fs) s = runStages fs s.withCodes := by
  have htree : tbBuildBody s = .ok { s with
      node := (buildTree s.ft).1, pq := [], root := 2 * s.ft.length - 2, treeValid := true, ctValid := false } := by
    rw [tbBuildBody, if_neg (by simpa using hft)]
    simp only [queue_buildTree hft, pqRemoveHead]
  rw [runStages_cons_of_ok _ htree]
  exact runStages_cons_of_ok fs rfl

/-- TB_BUILD of an empty table raises MissingInputError(0) (R157). -/
theorem runStages_tbBuild_of_nil {s : State} (hft : s.ft = []) (fs : List (State → Except CmdError State)) :
    runStages (tbBuildBody :: fs) s = .error missingInputError :=
  runStages_cons_of_error fs (if_pos (by simp [hft]))

/-! ### The bits of an input -/

/-- Where every symbol has a code, BS_ASM raises CapacityError(2) or appends all the codes (R181). -/
theorem assembleBits_of_allCoded {ct : CodeTable} {cap : Nat} {xs : List Byte} {bits : Bits} (hcoded : allCoded ct xs)
    (hbits : bits.length ≤ cap) :
    assembleBits ct cap xs bits =
      if cap < bits.length + (encodeText ct xs).length then .error (capacityError 2) else .ok (bits ++ encodeText ct xs) := by
  induction xs generalizing bits with
  | nil => simp [assembleBits, encodeText, hbits]
  | cons x xs ih =>
    obtain ⟨hx, hxs⟩ := List.forall_mem_cons.1 hcoded
    obtain ⟨c, hc⟩ := Option.isSome_iff_exists.1 hx
    simp only [assembleBits, hc, encodeText_cons hc, List.length_append]
    by_cases hfit : bits.length + c.length > cap
    · rw [if_pos hfit, if_pos (by omega)]
    · rw [if_neg hfit, ih hxs (by rw [List.length_append]; omega), List.length_append, List.append_assoc, Nat.add_assoc]

theorem buildTable_eq_nil {xs : List Byte} : buildTable xs = [] ↔ xs = [] := by
  refine ⟨fun h => List.eq_nil_iff_forall_not_mem.2 fun x hx => ?_, fun h => h ▸ rfl⟩
  have hkey : x ∈ (buildTable xs).map Prod.fst := mem_keys_buildTable.2 hx
  rw [h] at hkey
  contradiction

/-- The codes of an input in the tree of its own table (R234). -/
def inputBits (xs : List Byte) : Bits := encodeText (codeTableOf (buildTable xs)) xs

/-- The container of an input (R234). -/
def inputContainer (xs : List Byte) : List Byte :=
  containerBytes (buildTable xs) (padCount (inputBits xs).length) (packBytes (inputBits xs))

/-! ### The command -/

/-- The error that COMPRESS raises on an input, the first of its stages deciding (R233, R239, R264). -/
def compressError? (c : Config) (xs : List Byte) : Option CmdError :=
  if c.ibufSize < xs.length then some (preconditionError 1)
  else if xs = [] then some missingInputError
  else if 8 * c.pbufSize < (inputBits xs).length then some (capacityError 2)
  else if c.obufSize < (inputContainer xs).length then some (capacityError 4)
  else none

/-- What COMPRESS without an error leaves, before its completion (R234). -/
def State.compressed (s : State) : State :=
  { s.clearInstance with
    ft := buildTable s.input, node := (buildTree (buildTable s.input)).1, root := 2 * (buildTable s.input).length - 2
    treeValid := true, ctValid := true, ct := codeTableOf (buildTable s.input), bitbuf := inputBits s.input
    pbuf := Memory.writeList s.pbuf 0 (packBytes (inputBits s.input)), pkLen := (packBytes (inputBits s.input)).length
    pad := padCount (inputBits s.input).length, hdrLen := 5 * (buildTable s.input).length
    obuf := Memory.writeList s.obuf 0 (inputContainer s.input), outLen := (inputContainer s.input).length }

theorem output_compressed (s : State) : s.compressed.complete.output = inputContainer s.input :=
  State.bytesAt_of_writeList (b := .obuf) (m := s.obuf) rfl

theorem payload_compressed (s : State) : s.compressed.complete.payload = packBytes (inputBits s.input) :=
  State.bytesAt_of_writeList (b := .pbuf) (m := s.pbuf) rfl

/-- What the first stage of COMPRESS leaves: the input's table in the emptied instance (R130). -/
def State.counted (s : State) : State := { s.clearInstance.invalidate with ft := buildTable s.input }

/-- What the stages before the packing leave: the bits of the input. -/
def State.assembled (s : State) : State := { s.counted.withCodes with bitbuf := inputBits s.input }

/-- The assembly of an input with the codes of its own table fails only for want of room (R181, R234). -/
theorem bsAsmBody_counted {s : State} (hlen : s.inLen.toNat ≤ s.cfg.ibufSize) :
    bsAsmBody s.counted.withCodes =
      if 8 * s.cfg.pbufSize < (inputBits s.input).length then .error (capacityError 2) else .ok s.assembled := by
  have hbody := commandBody_bsAsm_of_fits (s := s.counted.withCodes) rfl hlen
  have hbits := assembleBits_of_allCoded (bits := []) (allCoded_buildTable (length_input_lt s)) (Nat.zero_le (8 * s.cfg.pbufSize))
  rw [List.length_nil, Nat.zero_add, List.nil_append] at hbits
  refine hbody.trans ((congrArg _ hbits).trans ?_)
  rw [inputBits]
  split <;> rfl

/-- What the packing leaves: the packed bits of the input as the payload (R184). -/
def State.packed (s : State) : State :=
  { s.assembled.writePayload (packBytes (inputBits s.input)) with pad := padCount (inputBits s.input).length }

/-- The container of the packed bits fails only for want of room (R203). -/
theorem ccEncodeBody_packed (s : State) :
    ccEncodeBody s.packed =
      if s.cfg.obufSize < (inputContainer s.input).length then .error (capacityError 4) else .ok s.compressed := by
  have hpayload : s.packed.payload = packBytes (inputBits s.input) := payload_writePayload s.assembled _
  have hout : containerBytes s.packed.ft s.packed.pad s.packed.payload = inputContainer s.input := by
    rw [hpayload]
    rfl
  have hstate : ({ s.packed.writeOutput (inputContainer s.input) with hdrLen := (serTable s.packed.ft).length } : State) =
      s.compressed := by
    rw [length_serTable]
    simp only [State.packed, State.assembled, State.withCodes, State.counted, State.compressed, State.writeOutput,
      State.writePayload, State.invalidate, State.clearInstance_pq, State.clearInstance_pbuf, State.clearInstance_obuf]
  rw [ccEncodeBody, hout, hstate]
  rfl

/-- COMPRESS raises the error of its input, or leaves what the input gives (R233, R234). -/
theorem commandBody_compress (s : State) :
    commandBody .compress s = (compressError? s.cfg s.input).elim (.ok s.compressed) .error := by
  rw [compressError?, length_input]
  by_cases hlong : s.cfg.ibufSize < s.inLen.toNat
  · rw [if_pos hlong]
    exact runStages_cons_of_error _ (if_pos (decide_eq_true hlong))
  have hcount : ftBuildBody s.clearInstance = .ok s.counted := ftBuildBody_of_fits (s := s.clearInstance) (not_lt.1 hlong)
  have hstages : commandBody .compress s =
      runStages [tbBuildBody, cgGenBody, bsAsmBody, bpPackBody, ccEncodeBody] s.counted := runStages_cons_of_ok _ hcount
  rw [if_neg hlong, hstages]
  by_cases hnil : s.input = []
  · rw [if_pos hnil]
    exact runStages_tbBuild_of_nil (buildTable_eq_nil.2 hnil) _
  have hft : s.counted.ft ≠ [] := mt buildTable_eq_nil.1 hnil
  have hasm := bsAsmBody_counted (not_lt.1 hlong)
  rw [if_neg hnil, runStages_tbBuild_cgGen hft]
  by_cases hbits : 8 * s.cfg.pbufSize < (inputBits s.input).length
  · rw [if_pos hbits] at hasm ⊢
    exact runStages_cons_of_error _ hasm
  have hpack : bpPackBody s.assembled = .ok s.packed := rfl
  have hencode := ccEncodeBody_packed s
  rw [if_neg hbits] at hasm ⊢
  rw [runStages_cons_of_ok _ hasm, runStages_cons_of_ok _ hpack]
  by_cases hout : s.cfg.obufSize < (inputContainer s.input).length
  · rw [if_pos hout] at hencode ⊢
    exact runStages_cons_of_error _ hencode
  · rw [if_neg hout] at hencode ⊢
    exact runStages_cons_of_ok _ hencode

/-! ### What the command leaves -/

theorem exec_compress_of_none {s : State} (h : compressError? s.cfg s.input = none) :
    exec .compress s = .next s.compressed.complete :=
  exec_of_commandBody_ok (by rw [commandBody_compress, h]; rfl)

theorem exec_compress_of_some {s : State} {e : CmdError} (h : compressError? s.cfg s.input = some e) :
    exec .compress s = .next (afterError s e.kind.code (BitVec.ofNat 32 e.info)) :=
  exec_of_commandBody_error (by rw [commandBody_compress, h]; rfl)

/-- With a non-empty input that fits IBUF only the capacities of PBUF and OBUF decide (R233). -/
theorem compressError?_of_ne_nil {c : Config} {xs : List Byte} (hlen : xs.length ≤ c.ibufSize) (hne : xs ≠ []) :
    compressError? c xs =
      if 8 * c.pbufSize < (inputBits xs).length then some (capacityError 2)
      else if c.obufSize < (inputContainer xs).length then some (capacityError 4) else none := by
  rw [compressError?, if_neg (not_lt.2 hlen), if_neg hne]

/-- Settles O46: the empty input has the empty table, of which TB_BUILD makes no tree. -/
theorem compressEmptyInputRaisesError : Obligations.CompressEmptyInputRaisesError := by
  refine fun s hlen => ⟨exec_compress_of_some (e := missingInputError) ?_, rfl⟩
  have hnil : s.input = [] := List.length_eq_zero_iff.1 (by rw [length_input, hlen]; rfl)
  rw [compressError?, hnil, List.length_nil, if_neg (Nat.not_lt_zero _), if_pos rfl]

/-- Settles O45: with a non-empty input that fits, the two capacities decide, and the stages leave the input's container. -/
theorem compressWritesContainer : Obligations.CompressWritesContainer := by
  refine ⟨rfl, fun s ft ct bits out hpos hlen hft hct hbits hout => ?_⟩
  have hne : s.input ≠ [] := List.length_pos_iff.1 (by rwa [length_input])
  have hcheck := compressError?_of_ne_nil (by rwa [length_input]) hne
  replace hout : out = inputContainer s.input := by
    rw [hout, hbits, hct, hft, ← length_serTable]
    rfl
  subst hft hct hbits hout
  refine ⟨fun hbits => ?_, fun hbits hlong => ?_, fun hbits hfit => ?_⟩
  · exact exec_compress_of_some (hcheck.trans (if_pos hbits))
  · exact ⟨_, exec_compress_of_some (hcheck.trans ((if_neg (not_lt.2 hbits)).trans (if_pos hlong))), rfl⟩
  · exact ⟨_, exec_compress_of_none (hcheck.trans ((if_neg (not_lt.2 hbits)).trans (if_neg (not_lt.2 hfit)))), rfl,
      output_compressed s, payload_compressed s, allCoded_buildTable (length_input_lt s)⟩

/-! ### Determinism -/

/-- What R238 compares of two blocks after COMPRESS: the outcome, the instance, the payload, the output and the error. -/
abbrev sameInstance (t v : State) : Prop :=
  t.done = v.done ∧ t.outLen = v.outLen ∧ t.output = v.output ∧
    (t.ft = v.ft ∧ t.node = v.node ∧ t.pq = v.pq ∧ t.root = v.root ∧ t.treeValid = v.treeValid ∧ t.ctValid = v.ctValid ∧
      t.ct = v.ct ∧ t.bitbuf = v.bitbuf) ∧
    (t.pkLen = v.pkLen ∧ t.payload = v.payload ∧ t.pad = v.pad ∧ t.hdrLen = v.hdrLen ∧ t.res0 = v.res0 ∧ t.res1 = v.res1 ∧
      t.res2 = v.res2) ∧
    (t.done = false → t.err = true ∧ v.err = true ∧ t.errCode = v.errCode ∧ t.errInfo = v.errInfo)

/-- The error entry leaves an empty instance and the error (R256). -/
theorem sameInstance_afterError (s u : State) (code : Byte) (info : Word) :
    sameInstance (afterError s code info) (afterError u code info) :=
  ⟨rfl, rfl, rfl, ⟨rfl, rfl, rfl, rfl, rfl, rfl, rfl, rfl⟩, ⟨rfl, rfl, rfl, rfl, rfl, rfl, rfl⟩, fun _ => ⟨rfl, rfl, rfl, rfl⟩⟩

/-- What COMPRESS leaves without an error is made of the input alone. -/
theorem sameInstance_compressed {s u : State} (h : s.input = u.input) :
    sameInstance s.compressed.complete u.compressed.complete := by
  refine ⟨rfl, ?_, ?_, ?_, ?_, fun hdone => ?_⟩
  · simp [State.compressed, h]
  · rw [output_compressed, output_compressed, h]
  · simp [State.compressed, h]
  · rw [payload_compressed, payload_compressed]
    simp [State.compressed, h]
  · contradiction

/-- Settles O47: the error is a function of the parameters and the input, and so is the instance that is left. -/
theorem compressIsDeterministic : Obligations.CompressIsDeterministic := by
  intro s u hcfg hlen hbytes
  have hinput : s.input = u.input := by
    rw [State.input, State.input, ← hlen]
    exact List.map_congr_left fun a ha => by simpa using hbytes a (List.mem_range.1 ha)
  have hcheck : compressError? s.cfg s.input = compressError? u.cfg u.input := by rw [hcfg, hinput]
  cases herr : compressError? u.cfg u.input with
  | none => exact ⟨_, _, exec_compress_of_none (hcheck.trans herr), exec_compress_of_none herr, sameInstance_compressed hinput⟩
  | some e =>
    exact ⟨_, _, exec_compress_of_some (hcheck.trans herr), exec_compress_of_some herr, sameInstance_afterError s u _ _⟩

end Sys2Proof.Machine
end

section
/-! PROOFS. DECOMPRESS (R221, R226, R235): after the parser, the table decides whether there is a tree, and the decoding of the
payload's bits how the command ends; what COMPRESS wrote of an input it decodes to that input (R237). -/

namespace Sys2Proof.Machine

/-! ### The parser's errors -/

/-- CC_PARSE raises an error for a long input or the error of the parser (R206). -/
theorem ccParseBody_eq_error_iff {s : State} {e : CmdError} :
    ccParseBody s = .error e ↔ s.inputTooLong = true ∧ e = preconditionError 1 ∨
      s.inputTooLong = false ∧ parseContainer s.cfg.pbufSize s.input = .error e := by
  rw [ccParseBody]
  cases s.inputTooLong with
  | true => simp [eq_comm]
  | false => cases parseContainer s.cfg.pbufSize s.input <;> simp

/-- DECOMPRESS raises what CC_PARSE raises: emptying the instance leaves the input and the parameters (R235). -/
theorem commandBody_decompress_of_ccParse_error {s : State} {e : CmdError} (h : ccParseBody s = .error e) :
    commandBody .decompress s = .error e := by
  have hcases := ccParseBody_eq_error_iff.1 h
  exact runStages_cons_of_error _ ((ccParseBody_eq_error_iff (s := s.clearInstance)).2 hcases)

/-! ### The stages after the parser -/

/-- What the stages of DECOMPRESS before the decoder leave of a container: its parts, the tree and the codes of its table, and the
bits of its payload. -/
def State.unpacked (s : State) (p : Parsed) : State :=
  { s.clearInstance with
    ft := p.table, node := (buildTree p.table).1, root := 2 * p.table.length - 2, treeValid := true, ctValid := true
    ct := codeTableOf p.table, bitbuf := unpackBytes p.payload, pbuf := Memory.writeList s.pbuf 0 p.payload
    pkLen := p.payload.length, pad := p.pad, hdrLen := p.hdrLen }

/-- BP_UNPACK unpacks the payload that the parser committed (R187). -/
theorem bpUnpackBody_commitParse (s : State) (p : Parsed) :
    bpUnpackBody (s.clearInstance.invalidate.commitParse p).withCodes = .ok (s.unpacked p) := by
  have hpayload : (s.clearInstance.invalidate.commitParse p).withCodes.payload = p.payload :=
    payload_commitParse s.clearInstance.invalidate p
  rw [bpUnpackBody, hpayload]
  simp only [State.withCodes, State.commitParse, State.writePayload, State.invalidate, State.unpacked, State.clearInstance_pq,
    State.clearInstance_pbuf]

section
variable {s : State} {p : Parsed} (hlen : s.inLen.toNat ≤ s.cfg.ibufSize) (hparse : parseContainer s.cfg.pbufSize s.input = .ok p)
include hlen hparse

/-- The stages of DECOMPRESS go on from what the parser commits (R235). -/
theorem commandBody_decompress_of_parse :
    commandBody .decompress s =
      runStages [tbBuildBody, cgGenBody, bpUnpackBody, bdDecodeBody] (s.clearInstance.invalidate.commitParse p) :=
  runStages_cons_of_ok _ (ccParseBody_eq_ok_iff.2 ⟨hlen, p, hparse, rfl⟩)

/-- Of an empty table DECOMPRESS makes no tree (R157, R235). -/
theorem commandBody_decompress_of_nil (hft : p.table = []) : commandBody .decompress s = .error missingInputError :=
  (commandBody_decompress_of_parse hlen hparse).trans (runStages_tbBuild_of_nil hft _)

/-- With a table that is not empty the decoding of the payload's bits, but for the padding, decides how DECOMPRESS ends (R221, R222,
R235). -/
theorem commandBody_decompress_of_ne_nil (hft : p.table ≠ []) :
    commandBody .decompress s =
      (decodeBits (codeTableOf p.table) s.cfg.obufSize ((unpackBytes p.payload).take (8 * p.payload.length - p.pad)) 0 [] []).map
        (s.unpacked p).writeOutput := by
  obtain ⟨digits, ⟨-, -, -, -, -, hpad, hempty⟩, -, -⟩ := parseContainer_eq_ok_iff.1 hparse
  have hpadFits : p.pad ≤ (unpackBytes p.payload).length := by
    rw [length_unpackBytes]
    rcases p.payload.eq_nil_or_concat' with hnil | ⟨bs, b, hbs⟩
    · rw [hempty hnil]
      exact Nat.zero_le _
    · rw [hbs, List.length_append, List.length_singleton]
      omega
  have hdecode := commandBody_bdDecode_of_fits (s := s.unpacked p) rfl hpadFits
  rw [commandBody_decompress_of_parse hlen hparse, runStages_tbBuild_cgGen hft,
    runStages_cons_of_ok _ (bpUnpackBody_commitParse s p), ← length_unpackBytes]
  refine Eq.trans ?_ hdecode
  rw [commandBody]
  simp only [runStages]
  cases bdDecodeBody (s.unpacked p) <;> rfl

end

/-! ### The command -/

/-- The decoder reads the codes of a text that fits as that text (R226). -/
theorem decodeBits_encodeText {ct : CodeTable} (h : codesWf ct) {cap : Nat} {xs : List Byte} (hcoded : allCoded ct xs)
    (hfit : xs.length ≤ cap) : decodeBits ct cap (encodeText ct xs) 0 [] [] = .ok xs := by
  rw [← List.append_nil (encodeText ct xs), decodeBits_encodeText_append h hcoded [] (by simpa using hfit)]
  rfl

/-- Settles O48: the parser takes the container, and the decoder reads the codes of the text, behind which no bits are left. -/
theorem decompressReturnsText : Obligations.DecompressReturnsText := by
  refine ⟨rfl, fun s code info h => ?_, fun s digits pad ft payload hlen hcontainer hfit => ?_⟩
  · rcases exec_cases h with ⟨u, -, hu⟩ | ⟨e, hbody, he⟩
    · exact absurd (congrArg State.done hu) Bool.false_ne_true
    · rw [exec_eq_finish, commandBody_decompress_of_ccParse_error hbody, finish_error, he]
  have hparse : parseContainer s.cfg.pbufSize s.input = .ok ⟨ft, 5 * ft.length, pad, payload⟩ :=
    parseContainer_eq_ok_iff.2 ⟨digits, hcontainer, hfit, rfl⟩
  refine ⟨fun hft => ?_, fun e hft hdecode => ?_, fun xs hft hbits hcoded hroom => ?_⟩
  · exact ⟨_, exec_of_commandBody_error (commandBody_decompress_of_nil hlen hparse hft), rfl⟩
  · have hbody := commandBody_decompress_of_ne_nil hlen hparse hft
    rw [hdecode] at hbody
    exact ⟨_, exec_of_commandBody_error hbody, rfl⟩
  · obtain ⟨-, -, -, -, hwf, -, -⟩ := hcontainer
    have hbody := commandBody_decompress_of_ne_nil hlen hparse hft
    rw [hbits, decodeBits_encodeText (codesWf_codeTableOf hwf) hcoded hroom] at hbody
    exact ⟨_, exec_of_commandBody_ok hbody, rfl, output_writeOutput _ xs,
      State.bytesAt_of_writeList (b := .pbuf) (m := s.pbuf) rfl⟩

/-! ### The round trip -/

/-- Packed bits that fit PBUF's bits fit its bytes (R6, R183). -/
theorem length_packBytes_le {bits : Bits} {n : Nat} (h : bits.length ≤ 8 * n) : (packBytes bits).length ≤ n := by
  have hbytes := eight_mul_length_packBytes bits
  have hpad := padCount_le bits.length
  omega

/-- The unpacked bytes without the padding are the bits that were packed (R183, R186, R221). -/
theorem take_unpackBytes_packBytes (bits : Bits) :
    (unpackBytes (packBytes bits)).take (8 * (packBytes bits).length - padCount bits.length) = bits := by
  rw [eight_mul_length_packBytes, Nat.add_sub_cancel, unpackBytes_packBytes, List.take_left]

/-- What COMPRESS writes of an input is a container of the input's table and bits (R109, R234). -/
theorem isContainer_inputContainer {xs : List Byte} (hlen : xs.length < 2 ^ 32) :
    isContainer (inputContainer xs) (decText (5 * (buildTable xs).length)) (padCount (inputBits xs).length) (buildTable xs)
      (packBytes (inputBits xs)) := by
  refine isContainer_containerBytes (tableWf_buildTable hlen) (padCount_le _) fun hnil => ?_
  have hbytes := eight_mul_length_packBytes (inputBits xs)
  rw [hnil, List.length_nil] at hbytes
  omega

/-- Without an error of COMPRESS the bits of the input fit PBUF (R181, R233). -/
theorem length_inputBits_le_of_none {c : Config} {xs : List Byte} (h : compressError? c xs = none) :
    (inputBits xs).length ≤ 8 * c.pbufSize := by
  rw [compressError?] at h
  split_ifs at h with _ _ hbits
  exact not_lt.1 hbits

/-- Settles O49: COMPRESS wrote the container of the input, in which DECOMPRESS finds the input's table and the input's bits. -/
theorem compressDecompressRoundTrip : Obligations.CompressDecompressRoundTrip := by
  intro s t u hpos hlen hroom hcompress hdone hcfg hinput hulen
  have hxs : s.input.length < 2 ^ 32 := length_input_lt s
  have hne : s.input ≠ [] := List.length_pos_iff.1 (by rwa [length_input])
  cases herr : compressError? s.cfg s.input with
  | some e =>
    obtain rfl := Host.Outcome.next.inj ((exec_compress_of_some herr).symm.trans hcompress)
    contradiction
  | none =>
    obtain rfl := Host.Outcome.next.inj ((exec_compress_of_none herr).symm.trans hcompress)
    have hbits : (inputBits s.input).length ≤ 8 * u.cfg.pbufSize := hcfg ▸ length_inputBits_le_of_none herr
    have hcontainer := isContainer_inputContainer hxs
    rw [← output_compressed, ← hinput] at hcontainer
    obtain ⟨-, -, hdecompress⟩ := decompressReturnsText
    obtain ⟨-, -, htext⟩ := hdecompress u _ _ _ _ hulen hcontainer (length_packBytes_le hbits)
    obtain ⟨v, hv, hstate, hout, -⟩ := htext s.input (mt buildTable_eq_nil.1 hne) (take_unpackBytes_packBytes _)
      (allCoded_buildTable hxs) (by rw [length_input, hcfg]; exact hroom)
    exact ⟨v, hv, by rw [hstate], by rw [hstate, ← length_input], hout⟩

end Sys2Proof.Machine
end
